-- ==== Sys2Proof/Word.lean ====
section
/-! DEFINITION. The words the spec moves: bytes, two-byte and four-byte fields, and cells as they stand on a link. -/
namespace Sys2Proof

/-- One byte of a cell, record or image. -/
abbrev Byte := BitVec 8

/-- A two-byte field: a frame number or a cumulative counter (R183). -/
abbrev Half := BitVec 16

/-- A unit serial (R182). -/
abbrev Serial := BitVec 32

/-- One word on the source port or the tap port: lines 31 to 0 of SRC_D or TAP_D (R184). -/
abbrev PortWord := BitVec 32

/-- A cell as it stands on a ring link: 336 bytes (R97). -/
abbrev CellBytes := List Byte

end Sys2Proof
end

