-- ==== Sys2Proof/Syntax.lean ====
section
/-! DEFINITION. The commands: one constructor per row of spec/opcode_table.json.
The table gives a row no operands; each constructor carries what the row's rule lets the outside choose (log 1). -/
namespace Sys2Proof

/-- Which acknowledge of R177 was missing when a read attempt failed. -/
inductive AttemptPhase where
  /-- The device address of step 2. -/
  | deviceWrite
  /-- The word address of step 2. -/
  | wordAddress
  /-- The device address of step 3. -/
  | deviceRead
  deriving DecidableEq, Repr

/-- Which case of R100 makes a cell a cell error. -/
inductive CellErrorKind where
  | boundaryMissed
  | crcFailed
  deriving DecidableEq, Repr

/-- A command: one step of 95_what_each_step_holds.md. A cell operand is the 336 bytes that arrived (R97); a record
operand is the words taken on SRC_D while SRC_FRM stayed asserted (R184). -/
inductive Instr where
  /-- RESET (R176): power-on reset or assertion of the RESET pin. -/
  | reset
  /-- RESET_RELEASE (R176), with the RELAY strap as it is sampled. -/
  | resetRelease (strap : Bool)
  /-- CONFIG_ATTEMPT_FAILS (R177). -/
  | configAttemptFails (phase : AttemptPhase)
  /-- RETRY_WAIT_EXPIRY (R177). -/
  | retryWaitExpiry
  /-- CONFIG_ATTEMPT_SUCCEEDS (R179), with the 32 bytes received. -/
  | configAttemptSucceeds (image : List Byte)
  /-- ACTIVITY_APPEARS (R99). -/
  | activityAppears
  /-- ALIGNING_SILENCE (R99). -/
  | aligningSilence
  /-- LOCK_GAINED (R99). -/
  | lockGained
  /-- SILENCE_TIMER_EXPIRY (R99), and whether the link was active at some time during the 10 µs. -/
  | silenceTimerExpiry (active : Bool)
  /-- CELL_ERROR (R100). -/
  | cellError (kind : CellErrorKind)
  /-- PROBE (R120). -/
  | probe (cell : CellBytes)
  /-- ROSTER (R139). -/
  | roster (cell : CellBytes)
  /-- COMMIT (R143). -/
  | commit (cell : CellBytes)
  /-- HALT_CELL (R154). -/
  | haltCell (cell : CellBytes)
  /-- FRAME (R64). -/
  | frame (cell : CellBytes)
  /-- MERGE (R65). -/
  | merge (cell : CellBytes)
  /-- RESULT (R71). -/
  | result (cell : CellBytes)
  /-- BULLETIN (R174). -/
  | bulletin (cell : CellBytes)
  /-- UNKNOWN_KIND_CELL (R104). -/
  | unknownKindCell (cell : CellBytes)
  /-- DEPARTURE_OPPORTUNITY (R110). -/
  | departureOpportunity
  /-- FRAME_TIMER_EXPIRY (R78). -/
  | frameTimerExpiry
  /-- LINE_SLOT_TIMER_EXPIRY (R80). -/
  | lineSlotTimerExpiry
  /-- LAP_LIMIT_EXPIRY (R88). -/
  | lapLimitExpiry
  /-- ROSTER_TIMER_EXPIRY (R138). -/
  | rosterTimerExpiry
  /-- COMMIT_LIMIT_EXPIRY (R145). -/
  | commitLimitExpiry
  /-- NO_ORIGIN_TIMER_EXPIRY (R147). -/
  | noOriginTimerExpiry
  /-- FIRST_FRAME_LIMIT_EXPIRY (R151). -/
  | firstFrameLimitExpiry
  /-- FRAME_MISSING_TIMER_EXPIRY (R151). -/
  | frameMissingTimerExpiry
  /-- HOLD_OFF_TIMER_EXPIRY (R156). -/
  | holdOffTimerExpiry
  /-- BEACON_TIMER_EXPIRY (R170). -/
  | beaconTimerExpiry
  /-- LAYER_SETUP (R25), with the words taken on SRC_D while SRC_FRM stayed asserted (R184). -/
  | layerSetup (words : List PortWord)
  /-- LINE (R43), with the words taken. -/
  | line (words : List PortWord)
  /-- UNKNOWN_RECORD (R41), with the words taken. -/
  | unknownRecord (words : List PortWord)
  /-- CUE_DEPARTS (R57). -/
  | cueDeparts
  /-- TAP_RECORD_DEPARTS (R163), with TAP_RDY as sampled before the first word (R184). -/
  | tapRecordDeparts (ready : Bool)
  deriving DecidableEq, Repr

end Sys2Proof
end

