-- ==== Sys2Proof/Decode.lean ====
section
/-! DEFINITION. Reading a command from a word of opcode-table bits. The table gives none of its rows bits, so no word
spells a command (log 22). -/
namespace Sys2Proof

/-- The command a word of `nbits` bits spells by the table's bits: none, for every word. -/
def decodeTableWord (_nbits _w : Nat) : Option Instr := none

end Sys2Proof
end

