-- ==== Sys2Proof/Config.lean ====
section
/-! DEFINITION. The free values: what the spec leaves open, as constants with no body.
Nothing can be proved about what they are, so a theorem of the model holds whatever they are. -/
namespace Sys2Proof

/-- A stream of free choices between two outcomes the spec leaves open. `State.freeCount` says how many have been
used, and each use takes a fresh one. Used where log 8 to log 11 say. -/
opaque Config.freeBit : Nat → Bool

/-- What the five cover bits of a second hold (Table 12-3) when a former top whose cover byte is above 31 moves down
(R10). The spec states no result there (log 12). -/
opaque Config.wideCover : Nat → BitVec 5

end Sys2Proof
end

