-- ==== Sys2Proof/Machine/Types.lean ====
section
/-! DEFINITION. The data the blocks hold and exchange: names of the spec's states and codes, colours and candidate
pairs, layer entries, cells and tap records by field. -/
namespace Sys2Proof.Machine

/-- Four like things, found by layer number or mark value 0 to 3 (R7, R19, R47). -/
structure Four (α : Type) where
  e0 : α
  e1 : α
  e2 : α
  e3 : α
  deriving DecidableEq, Repr

def Four.get {α : Type} (f : Four α) (i : Fin 4) : α :=
  match i with
  | 0 => f.e0
  | 1 => f.e1
  | 2 => f.e2
  | 3 => f.e3

def Four.set {α : Type} (f : Four α) (i : Fin 4) (v : α) : Four α :=
  match i with
  | 0 => { f with e0 := v }
  | 1 => { f with e1 := v }
  | 2 => { f with e2 := v }
  | 3 => { f with e3 := v }

def Four.map {α β : Type} (g : α → β) (f : Four α) : Four β :=
  ⟨g f.e0, g f.e1, g f.e2, g f.e3⟩

def Four.toList {α : Type} (f : Four α) : List α :=
  [f.e0, f.e1, f.e2, f.e3]

def Four.all {α : Type} (v : α) : Four α :=
  ⟨v, v, v, v⟩

/-- A timer: stopped, or running with the REFCK period at which it expires. -/
abbrev Timer := Option Nat

/-! ## Names in capitals (Table 12-9) -/

inductive RingState where
  | dark | listen | roll | run | halt | relay
  deriving DecidableEq, Repr

inductive Role where
  | none | member | origin
  deriving DecidableEq, Repr

inductive RelayCause where
  | none | configAbsent | configInvalid | strapped | duplicateId | ringTooLong
  deriving DecidableEq, Repr

/-- The two causes that demote a station (R148). -/
inductive Demotion where
  | duplicateId | ringTooLong
  deriving DecidableEq, Repr

/-- The eight halt causes of R150. -/
inductive HaltCause where
  | lockLost | degraded | lapTimeout | frameMissing | commitLost | notListed | duplicateId | ringTooLong
  deriving DecidableEq, Repr

/-- The refusal reasons of R56; `none` is the value after reset. -/
inductive Reason where
  | none | notRunning | malformed | noLayer | shape | outside | late | duplicate | full | unused | superseded | badWindow
  deriving DecidableEq, Repr

inductive LockState where
  | noSignal | aligning | locked
  deriving DecidableEq, Repr

inductive SyncState where
  | hunt | synced
  deriving DecidableEq, Repr

inductive LoaderState where
  | idle | reading | done | invalid | absent
  deriving DecidableEq, Repr

inductive MarkAction where
  | plain | lift | solid | hole
  deriving DecidableEq, Repr

inductive WeightMode where
  | top | second
  deriving DecidableEq, Repr

/-! ## Pixels and pairs -/

/-- A colour triple; arithmetic on it is done on each component. -/
structure Colour where
  r : Byte
  g : Byte
  b : Byte
  deriving DecidableEq, Repr

/-- Colour 0, 0, 0. -/
def Colour.zero : Colour := ⟨0, 0, 0⟩

/-- One pixel of a LINE record (R42). -/
structure Pixel where
  colour : Colour
  mark : Fin 4
  deriving DecidableEq, Repr

/-- A candidate (R1), and what the top of a pair holds (R2). -/
structure Candidate where
  priority : Nat
  colour : Colour
  cover : Nat
  solid : Bool
  station : Byte
  layer : Nat
  deriving DecidableEq, Repr

/-- What the second of a pair holds (R2). -/
structure Second where
  priority : Nat
  colour : Colour
  cover : Nat
  deriving DecidableEq, Repr

/-- A candidate pair (R2). -/
structure Pair where
  top : Candidate
  second : Second
  deriving DecidableEq, Repr

/-! ## Formats, rosters and configuration -/

/-- Width in spans S, height and frame rate code. -/
structure Format where
  spans : Nat
  height : Nat
  rate : Nat
  deriving DecidableEq, Repr

/-- An entry of the committed roster and of a COMMIT (R142). -/
structure RosterEntry where
  id : Byte
  serial : Serial
  deriving DecidableEq, Repr

/-- An entry of a ROSTER (R137). -/
structure RollEntry where
  id : Byte
  serial : Serial
  eligible : Bool
  lastEpoch : Byte
  deriving DecidableEq, Repr

/-- The configuration copy (R131, R180, R181). -/
structure ConfigCopy where
  stationId : Byte
  eligible : Bool
  tooDense : Bool
  format : Format
  mode : WeightMode
  backdrop : Colour
  backdropCover : Nat
  lead : Nat
  threshold : Nat
  deriving DecidableEq, Repr

/-- What a station holds together while it is in RUN (R131). -/
structure Committed where
  roster : List RosterEntry
  position : Nat
  format : Format
  mode : WeightMode
  backdrop : Colour
  backdropCover : Nat
  epoch : Byte
  deriving DecidableEq, Repr

/-- The last halt record (R160). -/
structure HaltRecord where
  cause : HaltCause
  reporter : Byte
  epoch : Byte
  deriving DecidableEq, Repr

/-- A held first-error capture (R128). -/
structure Capture where
  expected : Byte
  actual : Byte
  position : Nat
  frame : Option Half
  deriving DecidableEq, Repr

/-! ## Layers and line stores -/

/-- The fields both layer tables hold (R19), which are also those of a LAYER_SETUP record (R23). -/
structure Setup where
  base : Nat
  x0 : Nat
  y0 : Nat
  width : Nat
  height : Nat
  cover : Nat
  target : Nat
  step : Nat
  marks : Four MarkAction
  deriving DecidableEq, Repr

/-- A shadow entry (R20). -/
structure ShadowEntry where
  setup : Setup
  pending : Bool
  deriving DecidableEq, Repr

/-- An active entry (R21). -/
structure ActiveEntry where
  setup : Setup
  current : Nat
  deriving DecidableEq, Repr

/-- A slot of a line store (R47). -/
structure Slot where
  line : Nat
  pixels : List Pixel
  read : Bool
  deriving DecidableEq, Repr

/-- A CUE record (R57). -/
structure Cue where
  frame : Half
  line : Nat
  deriving DecidableEq, Repr

/-- A LINE record by field (R42). -/
structure LineRecord where
  layer : Fin 4
  line : Nat
  pixels : List Pixel
  deriving DecidableEq, Repr

/-! ## The origin engine -/

/-- The state of an outstanding entry (R85). -/
inductive EntryState where
  | inFlight
  | resolved (colours : List Colour)
  | lost
  deriving DecidableEq, Repr

/-- An entry of the outstanding list (R85). -/
structure OutEntry where
  frame : Half
  line : Nat
  span : Nat
  launch : Nat
  state : EntryState
  deriving DecidableEq, Repr

/-- A running frame timer: when it was started and the number of its next expiry (R77). -/
structure FrameTimer where
  start : Nat
  next : Nat
  deriving DecidableEq, Repr

/-! ## Cells by field -/

/-- A ROSTER cell (R137). `count` is the entry count as carried, `entries` the records it counts (at most 16). -/
structure RosterCell where
  originator : Byte
  serial : Serial
  launch : Byte
  count : Nat
  entries : List RollEntry
  deriving DecidableEq, Repr

/-- A COMMIT cell (R142). The weight mode is its code, so that a code that names none can be found. -/
structure CommitCell where
  epoch : Byte
  originId : Byte
  format : Format
  modeCode : Nat
  backdrop : Colour
  backdropCover : Nat
  count : Nat
  entries : List RosterEntry
  deriving DecidableEq, Repr

/-- A MERGE cell (R97, Table 12-2). -/
structure MergeCell where
  epoch : Byte
  frame : Half
  line : Nat
  span : Nat
  pairs : List Pair
  deriving DecidableEq, Repr

/-- A RESULT cell without its epoch: what is handed to a tap (R71, R91). -/
structure ResultData where
  frame : Half
  line : Nat
  span : Nat
  lost : Bool
  colours : List Colour
  deriving DecidableEq, Repr

/-- The origin's counters in a bulletin or trailer (R90). -/
structure OriginCounters where
  byOrder : Half
  byTime : Half
  skipped : Half
  deriving DecidableEq, Repr

/-- The counters a bulletin and a FRAME_END trailer share (R168, R171). -/
structure StationCounters where
  cellErrors : Byte
  probeErrors : Byte
  missed : Half
  refused : Half
  lastReason : Reason
  tapDrops : Half
  activeLayers : Nat
  covers : Four Nat
  origin : Option OriginCounters
  lastHalt : Option HaltRecord
  capture : Option Capture
  deriving DecidableEq, Repr

/-- A bulletin (R171). -/
structure Bulletin where
  sender : Byte
  position : Nat
  role : Role
  frame : Half
  counters : StationCounters
  silent : List Nat
  deriving DecidableEq, Repr

/-- A cell of the local launch queue (R108). A HALT cell is held as bytes, since an accepted one leaves unchanged
(R154). -/
inductive LaunchCell where
  | roster (c : RosterCell)
  | commit (c : CommitCell)
  | halt (cell : CellBytes)
  | bulletin (b : Bulletin)
  deriving DecidableEq, Repr

/-- The kinds of local launch cells. -/
inductive LaunchKind where
  | roster | commit | halt | bulletin
  deriving DecidableEq, Repr

/-- What leaves at a departure opportunity (R110). -/
inductive TxOut where
  | silent
  | cell (bytes : CellBytes)
  deriving DecidableEq, Repr

/-- The choice of the transmitter's arbiter at a departure opportunity (R110). -/
inductive Departure where
  | silent
  | forward (cell : CellBytes) (rest : List CellBytes)
  | result (entry : OutEntry) (rest : List OutEntry)
  | frame (number : Half)
  | merge (line : Nat)
  | launch (cell : LaunchCell) (rest : List LaunchCell)
  | probe
  deriving DecidableEq, Repr

/-! ## Tap records -/

/-- The trailer of a FRAME_END (R168). -/
structure Trailer where
  counters : StationCounters
  dropsFrame : Byte
  mismatch : Half
  stale : Half
  overflow : Half
  probeErrors : Half
  bulletinsLost : Half
  bulletinsSkipped : Half
  stray : Option Half
  controlLost : Bool
  deriving DecidableEq, Repr

/-- The fields of a STATUS record (R170). -/
structure Status where
  stationId : Byte
  state : RingState
  role : Role
  relayCause : RelayCause
  eligible : Bool
  tooDense : Bool
  lock : LockState
  sync : SyncState
  qualified : Bool
  noOrigin : Bool
  controlLost : Bool
  haltCount : Byte
  lastHalt : Option HaltRecord
  deriving DecidableEq, Repr

/-- A record of the tap queue (Table 12-6). A BULLETIN record is the 36 bytes of Table 12-4. -/
inductive TapRecord where
  | frameBegin (frame : Half) (epoch : Byte) (implicit : Bool)
  | span (d : ResultData)
  | gap (frame : Half) (line span count : Nat)
  | frameEnd (frame : Half) (truncated : Bool) (trailer : Trailer)
  | bulletin (fields : List Byte)
  | haltNotice (h : HaltRecord)
  | status (t : Status)
  deriving DecidableEq, Repr

/-- A line and span, in raster order (R162). -/
structure Pos where
  line : Nat
  span : Nat
  deriving DecidableEq, Repr

/-- The open frame (R162). -/
structure OpenFrame where
  frame : Half
  epoch : Byte
  implicit : Bool
  deriving DecidableEq, Repr

/-- An entry of the ring health table (R175). -/
structure HealthEntry where
  id : Byte
  age : Byte
  silent : Bool
  deriving DecidableEq, Repr

/-- One action of the loader and the memory on the two-wire bus (R177). -/
inductive BusAction where
  /-- Nine clock pulses with the data line released by the loader. -/
  | ninePulses
  | start
  | repeatedStart
  | stop
  /-- A byte sent by the loader, and whether the memory acknowledged it. -/
  | send (b : Byte) (acked : Bool)
  /-- A byte received by the loader, and whether the loader acknowledged it. -/
  | receive (b : Byte) (acked : Bool)
  deriving DecidableEq, Repr

/-- The levels of the two-wire bus, true where high (12.7). CFG_SDA is low where the loader or the memory drives it. -/
structure BusLines where
  scl : Bool
  sda : Bool
  deriving DecidableEq, Repr

/-- The cue return path at one edge of SRC_CLK (R184). -/
inductive CueEdge where
  /-- CUE_FRM deasserted. -/
  | idle
  /-- CUE_FRM asserted, with the level of CUE_D. -/
  | bit (d : Bool)
  deriving DecidableEq, Repr

/-- The tap port at one edge of TAP_CLK (R184). -/
inductive TapEdge where
  /-- TAP_FRM deasserted. -/
  | idle
  /-- TAP_FRM asserted, with the 32 lines of TAP_D. -/
  | word (d : PortWord)
  deriving DecidableEq, Repr

end Sys2Proof.Machine
end

