-- ==== Sys2Proof/Machine/Operands.lean ====
section
/-! DEFINITION. The formats of chapter 12: how each cell, record and image lies in bytes, read and built (R183), the CRC
of a cell (R98) and the codes of Table 12-9. -/
namespace Sys2Proof.Machine

/-! ## Bytes and fields, most significant byte first (R183) -/

/-- Byte `i` of a run of bytes; a byte beyond its end reads as 0, which no well-formed operand has. -/
def byteAt (bs : List Byte) (i : Nat) : Byte := bs.getD i 0

/-- The two-byte field at `i`. -/
def halfAt (bs : List Byte) (i : Nat) : Half := byteAt bs i ++ byteAt bs (i + 1)

/-- The four-byte field at `i`. -/
def wordAt (bs : List Byte) (i : Nat) : Serial := halfAt bs i ++ halfAt bs (i + 2)

/-- The two-byte field at `i`, as a number. -/
def numAt (bs : List Byte) (i : Nat) : Nat := (halfAt bs i).toNat

def byteOf (n : Nat) : Byte := BitVec.ofNat 8 n

def halfBytes (h : Half) : List Byte := [h.extractLsb' 8 8, h.extractLsb' 0 8]

def wordBytes (w : Serial) : List Byte := halfBytes (w.extractLsb' 16 16) ++ halfBytes (w.extractLsb' 0 16)

/-- A number as a two-byte field. -/
def numBytes (n : Nat) : List Byte := halfBytes (BitVec.ofNat 16 n)

/-- A flag as bit `n` of a flag byte. -/
def flagBit (n : Nat) (b : Bool) : Byte := if b then BitVec.twoPow 8 n else 0

/-- A run of bytes with those from `off` on replaced by `new`. -/
def splice (bs : List Byte) (off : Nat) (new : List Byte) : List Byte :=
  bs.take off ++ new ++ bs.drop (off + new.length)

/-- `bs` with 00h bytes after it, up to `n` bytes. -/
def padTo (n : Nat) (bs : List Byte) : List Byte := bs ++ List.replicate (n - bs.length) 0

/-! ## Words and bits on the ports (R184) -/

/-- The bytes of the words taken on SRC_D: lines 31 to 24 are the first in record order. -/
def recordBytes (words : List PortWord) : List Byte := words.flatMap wordBytes

/-- The words that bytes leave in, the first byte on lines 31 to 24 and the last word padded with 00h bytes. -/
def wordsOf : List Byte → List PortWord
  | [] => []
  | [a] => [a ++ (0 : Byte) ++ (0 : Byte) ++ (0 : Byte)]
  | [a, b] => [a ++ b ++ (0 : Byte) ++ (0 : Byte)]
  | [a, b, c] => [a ++ b ++ c ++ (0 : Byte)]
  | a :: b :: c :: d :: rest => (a ++ b ++ c ++ d) :: wordsOf rest

/-- The bits of a byte in the order they are sent, the most significant first (R177, R184). -/
def byteBits (b : Byte) : List Bool := (List.range 8).map b.getMsbD

/-! ## Codes (Table 12-9) -/

def HaltCause.code : HaltCause → Byte
  | .lockLost => 1
  | .degraded => 2
  | .lapTimeout => 3
  | .frameMissing => 4
  | .commitLost => 5
  | .notListed => 6
  | .duplicateId => 7
  | .ringTooLong => 8

/-- The cause a code names, if any. -/
def haltCauseOf (code : Byte) : Option HaltCause :=
  [HaltCause.lockLost, .degraded, .lapTimeout, .frameMissing, .commitLost, .notListed, .duplicateId,
    .ringTooLong].find? (fun c => c.code == code)

def Reason.code : Reason → Byte
  | .none => 0
  | .notRunning => 1
  | .malformed => 2
  | .noLayer => 3
  | .shape => 4
  | .outside => 5
  | .late => 6
  | .duplicate => 7
  | .full => 8
  | .unused => 9
  | .superseded => 10
  | .badWindow => 11

def RingState.code : RingState → Byte
  | .dark => 0
  | .listen => 1
  | .roll => 2
  | .run => 3
  | .halt => 4
  | .relay => 5

def Role.code : Role → Byte
  | .none => 0
  | .member => 1
  | .origin => 2

def RelayCause.code : RelayCause → Byte
  | .none => 0
  | .configAbsent => 1
  | .configInvalid => 2
  | .strapped => 3
  | .duplicateId => 4
  | .ringTooLong => 5

def LockState.code : LockState → Byte
  | .noSignal => 0
  | .aligning => 1
  | .locked => 2

def SyncState.code : SyncState → Byte
  | .hunt => 0
  | .synced => 1

/-- The mark action a code names, if any (R24). -/
def markActionOf (code : Nat) : Option MarkAction :=
  match code with
  | 0 => some .plain
  | 1 => some .lift
  | 2 => some .solid
  | 3 => some .hole
  | _ => none

/-- The weight mode a code names, if any (R142, R179). -/
def weightModeOf (code : Nat) : Option WeightMode :=
  match code with
  | 0 => some .top
  | 1 => some .second
  | _ => none

def WeightMode.code : WeightMode → Nat
  | .top => 0
  | .second => 1

/-! ## Cells: header and CRC -/

/-- The kind codes. -/
def kindProbe : Byte := 0x01
def kindRoster : Byte := 0x02
def kindCommit : Byte := 0x03
def kindFrame : Byte := 0x04
def kindMerge : Byte := 0x05
def kindResult : Byte := 0x06
def kindBulletin : Byte := 0x07
def kindHalt : Byte := 0x08

/-- A cell of 336 bytes from its kind, epoch and body; unused bytes, and the place of the CRC, are 00h (R97, R183). -/
def cellOf (kind epoch : Byte) (body : List Byte) : CellBytes :=
  padTo 336 ([0xA7, 0x3C, kind, epoch] ++ body)

/-- The header epoch (Table 12-1). -/
def cellEpoch (c : CellBytes) : Byte := byteAt c 3

/-- One bit of the CRC register of R98: x^16 + x^12 + x^5 + 1. -/
def crcBit (r : Half) (b : Bool) : Half :=
  if r.msb != b then (r <<< 1) ^^^ 0x1021 else r <<< 1

/-- One byte into the CRC register, most significant bit first. -/
def crcByte (r : Half) (x : Byte) : Half :=
  (List.range 8).foldl (fun r i => crcBit r (x.getMsbD i)) r

/-- The CRC over a run of bytes: the register starts at all ones and there is no final inversion (R98). -/
def crc (bs : List Byte) : Half := bs.foldl crcByte 0xFFFF

/-- The CRC over cell bytes 2 to 333 (R183). -/
def cellCrc (c : CellBytes) : Half := crc ((c.take 334).drop 2)

/-- A cell with its CRC placed in bytes 334 and 335, as it departs (R98). -/
def sealCell (c : CellBytes) : CellBytes := splice c 334 (halfBytes (cellCrc c))

/-- The receiver's CRC check (R100). -/
def crcGood (c : CellBytes) : Bool := halfAt c 334 == cellCrc c

/-! ## Colours and candidate pairs -/

def Colour.bytes (c : Colour) : List Byte := [c.r, c.g, c.b]

def colourAt (bs : List Byte) (i : Nat) : Colour := ⟨byteAt bs i, byteAt bs (i + 1), byteAt bs (i + 2)⟩

def coloursBytes (cs : List Colour) : List Byte := cs.flatMap Colour.bytes

def readColours : Nat → List Byte → List Colour
  | 0, _ => []
  | n + 1, bs => colourAt bs 0 :: readColours n (bs.drop 3)

/-- A cover in the five bits of a second. A cover above 31 does not fit, and what is then held is free (log 12). -/
def secondCoverBits (cover : Nat) : BitVec 5 :=
  if cover < 32 then BitVec.ofNat 5 cover else Config.wideCover cover

/-- Table 12-3. -/
def Pair.bytes (p : Pair) : List Byte :=
  [ BitVec.ofBool p.top.solid ++ BitVec.ofNat 3 p.top.priority ++ (0#2 : BitVec 2) ++ BitVec.ofNat 2 p.top.layer,
    p.top.station,
    byteOf p.top.cover ] ++
  p.top.colour.bytes ++
  [ BitVec.ofNat 3 p.second.priority ++ secondCoverBits p.second.cover ] ++
  p.second.colour.bytes

/-- The pair whose ten bytes stand at the front (Table 12-3). -/
def readPair (bs : List Byte) : Pair :=
  { top :=
      { priority := ((byteAt bs 0).extractLsb' 4 3).toNat
        colour := colourAt bs 3
        cover := (byteAt bs 2).toNat
        solid := (byteAt bs 0).msb
        station := byteAt bs 1
        layer := ((byteAt bs 0).extractLsb' 0 2).toNat }
    second :=
      { priority := ((byteAt bs 6).extractLsb' 5 3).toNat
        colour := colourAt bs 7
        cover := ((byteAt bs 6).extractLsb' 0 5).toNat } }

def readPairs : Nat → List Byte → List Pair
  | 0, _ => []
  | n + 1, bs => readPair bs :: readPairs n (bs.drop 10)

def pairsBytes (ps : List Pair) : List Byte := ps.flatMap Pair.bytes

/-! ## Cell bodies (Table 12-2) -/

/-- The start position of a PROBE cell. -/
def probeStart (c : CellBytes) : Nat := (byteAt c 4).toNat

/-- The 24 sequence bytes of a PROBE cell. -/
def probeBytes (c : CellBytes) : List Byte := (c.drop 5).take 24

/-- A PROBE cell from its start position and sequence bytes. It carries no CRC (R98). -/
def probeCell (start : Nat) (sequence : List Byte) : CellBytes :=
  cellOf kindProbe 0 (byteOf start :: sequence)

def RollEntry.bytes (e : RollEntry) : List Byte :=
  e.id :: wordBytes e.serial ++ [flagBit 0 e.eligible, e.lastEpoch]

def readRollEntry (bs : List Byte) : RollEntry :=
  { id := byteAt bs 0, serial := wordAt bs 1, eligible := (byteAt bs 5).getLsbD 0, lastEpoch := byteAt bs 6 }

def readRollEntries : Nat → List Byte → List RollEntry
  | 0, _ => []
  | n + 1, bs => readRollEntry bs :: readRollEntries n (bs.drop 7)

def RosterCell.bytes (r : RosterCell) : CellBytes :=
  cellOf kindRoster 0
    (r.originator :: wordBytes r.serial ++ [r.launch, byteOf r.count] ++ r.entries.flatMap RollEntry.bytes)

/-- A ROSTER cell by field. A count above 16, which R137 discards, reads the 16 entries there is room for. -/
def readRoster (c : CellBytes) : RosterCell :=
  { originator := byteAt c 4
    serial := wordAt c 5
    launch := byteAt c 9
    count := (byteAt c 10).toNat
    entries := readRollEntries (min (byteAt c 10).toNat 16) (c.drop 11) }

/-- A ROSTER cell with one more entry at its tail and its entry count one more (R139, case 7). It leaves as every format
is sent: unused bytes and unnamed flag bits 0, epoch 0 (R183, R97). -/
def appendRoster (c : CellBytes) (e : RollEntry) : CellBytes :=
  let r := readRoster c
  RosterCell.bytes { r with count := r.count + 1, entries := r.entries ++ [e] }

def RosterEntry.bytes (e : RosterEntry) : List Byte := e.id :: wordBytes e.serial

def readRosterEntry (bs : List Byte) : RosterEntry := { id := byteAt bs 0, serial := wordAt bs 1 }

def readRosterEntries : Nat → List Byte → List RosterEntry
  | 0, _ => []
  | n + 1, bs => readRosterEntry bs :: readRosterEntries n (bs.drop 5)

def CommitCell.bytes (c : CommitCell) : CellBytes :=
  cellOf kindCommit c.epoch
    ([c.originId, byteOf c.format.spans] ++ numBytes c.format.height ++ [byteOf c.format.rate, byteOf c.modeCode] ++
      c.backdrop.bytes ++ [byteOf c.backdropCover, byteOf c.count] ++ c.entries.flatMap RosterEntry.bytes)

/-- A COMMIT cell by field. A count above 16, which R142 discards, reads the 16 entries there is room for. -/
def readCommit (c : CellBytes) : CommitCell :=
  { epoch := cellEpoch c
    originId := byteAt c 4
    format := { spans := (byteAt c 5).toNat, height := numAt c 6, rate := (byteAt c 8).toNat }
    modeCode := (byteAt c 9).toNat
    backdrop := colourAt c 10
    backdropCover := (byteAt c 13).toNat
    count := (byteAt c 14).toNat
    entries := readRosterEntries (min (byteAt c 14).toNat 16) (c.drop 15) }

/-- The frame number of a FRAME, MERGE or RESULT cell. -/
def cellFrame (c : CellBytes) : Half := halfAt c 4

/-- The line of a MERGE or RESULT cell. -/
def cellLine (c : CellBytes) : Nat := numAt c 6

/-- The span of a MERGE or RESULT cell. -/
def cellSpan (c : CellBytes) : Nat := (byteAt c 8).toNat

def frameCell (epoch : Byte) (frame : Half) : CellBytes := cellOf kindFrame epoch (halfBytes frame)

def MergeCell.bytes (m : MergeCell) : CellBytes :=
  cellOf kindMerge m.epoch (halfBytes m.frame ++ numBytes m.line ++ [byteOf m.span] ++ pairsBytes m.pairs)

def readMerge (c : CellBytes) : MergeCell :=
  { epoch := cellEpoch c, frame := cellFrame c, line := cellLine c, span := cellSpan c
    pairs := readPairs 32 (c.drop 9) }

/-- A MERGE cell with its 32 pairs replaced and every other byte as it arrived (R69). -/
def withPairs (c : CellBytes) (ps : List Pair) : CellBytes := splice c 9 (pairsBytes ps)

def resultCell (epoch : Byte) (d : ResultData) : CellBytes :=
  cellOf kindResult epoch
    (halfBytes d.frame ++ numBytes d.line ++ [byteOf d.span, flagBit 0 d.lost] ++ coloursBytes d.colours)

def readResult (c : CellBytes) : ResultData :=
  { frame := cellFrame c, line := cellLine c, span := cellSpan c, lost := (byteAt c 9).getLsbD 0
    colours := readColours 32 (c.drop 10) }

def haltCellOf (h : HaltRecord) : CellBytes := cellOf kindHalt h.epoch [h.reporter, h.cause.code]

/-- The halt record a HALT cell carries; none when its form is not good (R154): a cause code that names no cause, or a
reporter ID of 0 or above 63. -/
def readHalt (c : CellBytes) : Option HaltRecord :=
  match haltCauseOf (byteAt c 5) with
  | none => none
  | some cause =>
    if byteAt c 4 = 0 ∨ 63 < (byteAt c 4).toNat then none
    else some { cause := cause, reporter := byteAt c 4, epoch := cellEpoch c }

/-! ## Counters shared by bulletins and trailers -/

def OriginCounters.bytes : Option OriginCounters → List Byte
  | none => [0, 0, 0, 0, 0, 0]
  | some o => halfBytes o.byOrder ++ halfBytes o.byTime ++ halfBytes o.skipped

def lastHaltBytes : Option HaltRecord → List Byte
  | none => [0, 0, 0]
  | some h => [h.cause.code, h.reporter, h.epoch]

def captureBytes : Option Capture → List Byte
  | none => [0, 0, 0, 0, 0]
  | some c => [c.expected, c.actual, byteOf c.position] ++ halfBytes (c.frame.getD 0)

def captureHasFrame : Option Capture → Bool
  | none => false
  | some c => c.frame.isSome

def coversBytes (f : Four Nat) : List Byte := f.toList.map byteOf

/-- The silent-member list: bit n set when position n is silent (Table 12-4). -/
def silentMask (l : List Nat) : Half := l.foldl (fun m n => m ||| BitVec.twoPow 16 n) 0

/-- Cell bytes 4 to 39 of a BULLETIN (Table 12-4). -/
def Bulletin.bytes (b : Bulletin) : List Byte :=
  let k := b.counters
  [ b.sender, byteOf b.position, b.role.code,
    flagBit 0 k.origin.isSome ||| flagBit 1 k.lastHalt.isSome ||| flagBit 2 k.capture.isSome |||
      flagBit 3 (captureHasFrame k.capture) ] ++
  halfBytes b.frame ++ [k.cellErrors, k.probeErrors] ++ halfBytes k.missed ++ halfBytes k.refused ++
  [k.lastReason.code] ++ halfBytes k.tapDrops ++ [byteOf k.activeLayers] ++ coversBytes k.covers ++
  halfBytes (silentMask b.silent) ++ OriginCounters.bytes k.origin ++ lastHaltBytes k.lastHalt ++
  captureBytes k.capture

def bulletinCell (epoch : Byte) (b : Bulletin) : CellBytes := cellOf kindBulletin epoch b.bytes

/-- The bulletin fields of a BULLETIN cell, cell bytes 4 to 39. -/
def bulletinFields (c : CellBytes) : List Byte := (c.drop 4).take 36

/-- The sender ID of a BULLETIN cell. -/
def bulletinSender (c : CellBytes) : Byte := byteAt c 4

/-- The roster position of a BULLETIN cell. -/
def bulletinPosition (c : CellBytes) : Nat := (byteAt c 5).toNat

/-- The frame number of a BULLETIN cell. -/
def bulletinFrame (c : CellBytes) : Half := halfAt c 8

/-! ## Source port records (Table 12-5, R184) -/

/-- The length field of a record. -/
def recordLength (r : List Byte) : Nat := numAt r 1

/-- Whether a record was taken whole: neither cut short nor longer than its length field gives, and that length is the
one its kind requires (R24, R44, R184). -/
def wholeRecord (r : List Byte) (required : Nat) : Bool :=
  r.length == recordLength r && recordLength r == required

/-- A LAYER_SETUP record by field; none when it is MALFORMED (R24). -/
def readSetup (r : List Byte) : Option (Fin 4 × Setup) :=
  if wholeRecord r 20 then
    if hl : (byteAt r 3).toNat < 4 then
      match markActionOf (byteAt r 16).toNat, markActionOf (byteAt r 17).toNat, markActionOf (byteAt r 18).toNat,
          markActionOf (byteAt r 19).toNat with
      | some m0, some m1, some m2, some m3 =>
        let u : Setup :=
          { base := (byteAt r 4).toNat, x0 := numAt r 5, y0 := numAt r 7, width := numAt r 9, height := numAt r 11,
            cover := (byteAt r 13).toNat, target := (byteAt r 14).toNat, step := (byteAt r 15).toNat,
            marks := ⟨m0, m1, m2, m3⟩ }
        if u.base ≤ 7 ∧ u.x0 ≤ 2047 ∧ u.y0 ≤ 1199 ∧ u.width ≠ 0 ∧ u.height ≠ 0 ∧ u.x0 + u.width ≤ 2048 ∧
            u.y0 + u.height ≤ 1200 ∧ u.cover ≤ 16 ∧ u.target ≤ 16 ∧ u.step ≤ 16 then
          some (⟨(byteAt r 3).toNat, hl⟩, u)
        else none
      | _, _, _, _ => none
    else none
  else none

/-- A mark: bits 1 and 0 of its byte. -/
def markOf (b : Byte) : Fin 4 := (b.extractLsb' 0 2).toFin

def readPixels : Nat → List Byte → List Pixel
  | 0, _ => []
  | n + 1, bs => { colour := colourAt bs 0, mark := markOf (byteAt bs 3) } :: readPixels n (bs.drop 4)

/-- A LINE record by field; none when it is MALFORMED (R44). -/
def readLine (r : List Byte) : Option LineRecord :=
  let count := numAt r 6
  if wholeRecord r (8 + 4 * count) then
    if hl : (byteAt r 3).toNat < 4 then
      if numAt r 4 ≤ 1199 ∧ 1 ≤ count ∧ count ≤ 2048 then
        some { layer := ⟨(byteAt r 3).toNat, hl⟩, line := numAt r 4, pixels := readPixels count (r.drop 8) }
      else none
    else none
  else none

/-- The eight bytes of a CUE record (Table 12-5). -/
def Cue.bytes (c : Cue) : List Byte := [0x03, 0x00, 0x08] ++ halfBytes c.frame ++ numBytes c.line ++ [0x00]

/-- The return path while a cue leaves: 64 bits, CUE_FRM asserted with each (R184). -/
def Cue.edges (c : Cue) : List CueEdge := (c.bytes.flatMap byteBits).map .bit

/-! ## Tap records (Tables 12-6 to 12-8) -/

def numBytes3 (n : Nat) : List Byte := byteOf (n / 65536) :: numBytes n

/-- Bytes 5 to 48 of a FRAME_END (Table 12-7). -/
def Trailer.bytes (truncated : Bool) (t : Trailer) : List Byte :=
  let k := t.counters
  [ flagBit 0 truncated ||| flagBit 1 t.controlLost ||| flagBit 2 k.origin.isSome ||| flagBit 3 k.lastHalt.isSome |||
      flagBit 4 k.capture.isSome ||| flagBit 5 (captureHasFrame k.capture),
    k.cellErrors, k.probeErrors ] ++
  halfBytes k.missed ++ halfBytes k.refused ++ [k.lastReason.code] ++ halfBytes k.tapDrops ++
  [t.dropsFrame, byteOf k.activeLayers] ++ coversBytes k.covers ++ halfBytes t.mismatch ++ halfBytes t.stale ++
  halfBytes t.overflow ++ halfBytes t.probeErrors ++ halfBytes t.bulletinsLost ++ halfBytes t.bulletinsSkipped ++
  OriginCounters.bytes k.origin ++ halfBytes (t.stray.getD 0) ++ lastHaltBytes k.lastHalt ++ captureBytes k.capture

/-- Bytes 3 to 14 of a STATUS (Table 12-8). -/
def Status.bytes (t : Status) : List Byte :=
  [ t.stationId, t.state.code, t.role.code, t.relayCause.code, t.lock.code, t.sync.code,
    flagBit 0 t.eligible ||| flagBit 1 t.tooDense ||| flagBit 2 t.qualified ||| flagBit 3 t.noOrigin |||
      flagBit 4 t.controlLost ||| flagBit 5 t.lastHalt.isSome,
    t.haltCount ] ++ lastHaltBytes t.lastHalt ++ [0]

/-- A tap record as it is laid out: kind code, length, fields (Table 12-6). -/
def TapRecord.bytes : TapRecord → List Byte
  | .frameBegin f e i => [0x81] ++ numBytes 7 ++ halfBytes f ++ [e, flagBit 0 i]
  | .span d =>
    [0x82] ++ numBytes 105 ++ halfBytes d.frame ++ numBytes d.line ++ [byteOf d.span, flagBit 0 d.lost] ++
      coloursBytes d.colours
  | .gap f l s n => [0x83] ++ numBytes 11 ++ halfBytes f ++ numBytes l ++ [byteOf s] ++ numBytes3 n
  | .frameEnd f tr t => [0x84] ++ numBytes 49 ++ halfBytes f ++ t.bytes tr
  | .bulletin bs => [0x85] ++ numBytes 39 ++ bs
  | .haltNotice h => [0x86] ++ numBytes 6 ++ [h.cause.code, h.reporter, h.epoch]
  | .status t => [0x87] ++ numBytes 15 ++ t.bytes

/-- The tap port while a record leaves: its words, TAP_FRM asserted with each, and then TAP_FRM deasserted before any
other record (R184). One edge stands for the gap of one or more (log 18). -/
def TapRecord.edges (t : TapRecord) : List TapEdge := (wordsOf t.bytes).map .word ++ [.idle]

/-! ## Configuration image (Table 12-10) -/

/-- The sum of the image's bytes modulo 256 (R179). -/
def imageSum (bs : List Byte) : Nat := bs.foldl (fun a b => (a + b.toNat) % 256) 0

/-- The configuration an image gives; none when it is not valid (R179). The eligible flag is the image's own; the
capacity check of R180 comes after. -/
def readImage (bs : List Byte) : Option ConfigCopy :=
  match weightModeOf (byteAt bs 9).toNat with
  | none => none
  | some mode =>
    if byteAt bs 0 = 0x45 ∧ byteAt bs 1 = 0x55 ∧ byteAt bs 2 = 1 ∧
        (1 ≤ (byteAt bs 3).toNat ∧ (byteAt bs 3).toNat ≤ 63) ∧ (byteAt bs 4).toNat ≤ 1 ∧
        (1 ≤ (byteAt bs 5).toNat ∧ (byteAt bs 5).toNat ≤ 64) ∧ (16 ≤ numAt bs 6 ∧ numAt bs 6 ≤ 1200) ∧
        (byteAt bs 8).toNat ≤ 6 ∧ (byteAt bs 13).toNat ≤ 16 ∧
        (1 ≤ (byteAt bs 14).toNat ∧ (byteAt bs 14).toNat ≤ 4) ∧ 1 ≤ (byteAt bs 15).toNat ∧
        (bs.drop 16).take 15 = List.replicate 15 0 ∧ imageSum bs = 0 then
      some
        { stationId := byteAt bs 3
          eligible := (byteAt bs 4).getLsbD 0
          tooDense := false
          format := { spans := (byteAt bs 5).toNat, height := numAt bs 6, rate := (byteAt bs 8).toNat }
          mode := mode
          backdrop := colourAt bs 10
          backdropCover := (byteAt bs 13).toNat
          lead := (byteAt bs 14).toNat
          threshold := (byteAt bs 15).toNat }
    else none

end Sys2Proof.Machine
end

