-- ==== Sys2Proof/Machine/State.lean ====
section
/-! DEFINITION. The state of one UD408, block by block, its value after reset, and the two outcome types that the
interface asks for beside it. -/
namespace Sys2Proof.Machine

/-- Configuration loader (R176, R177). `wait` is the 1 ms wait between attempts; `bus` is what the attempt in hand
or the latest one has put on the two-wire bus. -/
structure Loader where
  state : LoaderState
  retry : Nat
  buffer : List Byte
  wait : Timer
  bus : List BusAction
  deriving DecidableEq, Repr

/-- Upstream receiver (R99). -/
structure Receiver where
  lock : LockState
  silence : Timer
  deriving DecidableEq, Repr

/-- Link checker (R118). -/
structure Checker where
  sync : SyncState
  previous : Option Nat
  clean : Nat
  bad : Nat
  qualified : Bool
  frameErrors : Byte
  totalErrors : Half
  capture : Option Capture
  deriving DecidableEq, Repr

/-- Cell filter (R102, R105). -/
structure Filter where
  cellErrors : Byte
  stale : Half
  deriving DecidableEq, Repr

/-- Ring controller (R131, R160, R170). -/
structure Ring where
  state : RingState
  role : Role
  config : Option ConfigCopy
  committed : Option Committed
  lastEpoch : Byte
  launchNumber : Byte
  elected : Bool
  commitEpoch : Byte
  noOrigin : Bool
  demotion : Option Demotion
  relayCause : RelayCause
  rosterTimer : Timer
  commitLimit : Timer
  noOriginTimer : Timer
  firstFrame : Timer
  frameMissing : Timer
  holdOff : Timer
  beacon : Timer
  lastHalt : Option HaltRecord
  haltCount : Byte
  deriving DecidableEq, Repr

/-- Layer unit (R19). -/
structure Layers where
  shadow : Four ShadowEntry
  active : Four ActiveEntry
  deriving DecidableEq, Repr

/-- Source port and line stores (R47, R48, R55 to R57). `cueBegun` says that the head cue is known to have begun to
leave, which a halt entry finds out (log 8); `cueOut` is the return path over the CUE record that left last, or CUE_FRM
deasserted (R184; log 18). -/
structure Source where
  stores : Four (List Slot)
  mergeLine : Option Nat
  lastMissed : Four (Option Nat)
  missed : Half
  refused : Half
  lastReason : Reason
  cues : List Cue
  cueBegun : Bool
  cueOut : List CueEdge
  deriving DecidableEq, Repr

/-- Merge stage (R62). -/
structure MergeStage where
  lastTaken : Option Half
  mismatch : Half
  deriving DecidableEq, Repr

/-- Origin engine (R75). `lineSlot` is the next slot k of a running line slot timer. -/
structure OriginEngine where
  frameTimer : Option FrameTimer
  lineSlot : Option Nat
  frameNumber : Option Half
  readyFrame : Option Half
  lines : List Nat
  nextSpan : Nat
  outstanding : List OutEntry
  lapCount : Nat
  lostByOrder : Half
  lostByTime : Half
  skipped : Half
  stray : Half
  deriving DecidableEq, Repr

/-- Transmitter (R106, R108, R112). `out` is what left at the last departure opportunity. -/
structure Transmitter where
  forward : List CellBytes
  launch : List LaunchCell
  overflow : Half
  probePosition : Nat
  out : TxOut
  deriving DecidableEq, Repr

/-- Tap unit (R162). `out` is the tap port over the record that left last and the gap after it, or TAP_FRM
deasserted (R184; log 18). -/
structure Tap where
  queue : List TapRecord
  openFrame : Option OpenFrame
  lastClosed : Option Half
  next : Pos
  dropsFrame : Byte
  drops : Half
  controlLost : Bool
  out : List TapEdge
  deriving DecidableEq, Repr

/-- Bulletin unit (R172). `outstanding` is the own-bulletin-outstanding flag with its frame number. -/
structure BulletinUnit where
  health : List HealthEntry
  outstanding : Option Half
  lost : Half
  skipped : Half
  deriving DecidableEq, Repr

/-- The status pins, true where asserted (R136, R149). -/
structure Pins where
  ringOk : Bool
  origin : Bool
  fault : Bool
  deriving DecidableEq, Repr

/-- The whole station. `now` counts REFCK periods since reset (log 3), `inReset` says that a reset is held (R176),
`serial` is the unit serial (R182), `freeCount` the free choices used (log 7), `pending` the commands waiting. -/
structure State where
  now : Nat
  inReset : Bool
  serial : Serial
  loader : Loader
  rx : Receiver
  checker : Checker
  filter : Filter
  ring : Ring
  layers : Layers
  source : Source
  merge : MergeStage
  origin : OriginEngine
  tx : Transmitter
  tap : Tap
  bulletin : BulletinUnit
  pins : Pins
  freeCount : Nat
  pending : List Instr
  deriving DecidableEq, Repr

/-- No command of this block stops with a fault: the spec gives every command an effect. Safe: nothing raises one. -/
inductive Fault where
  deriving DecidableEq, Repr

/-- Refusals. -/
inductive Refusal where
  /-- The command has no meaning in the model yet. Raised only by an arm of `exec` that says so by name; no arm
  does. Safe: the model stops where the hardware goes on. -/
  | notModelled (mnemonic : String)
  deriving DecidableEq, Repr

/-- The fields of both layer tables after reset (R22). -/
def Setup.reset : Setup :=
  { base := 0, x0 := 0, y0 := 0, width := 1, height := 1, cover := 0, target := 0, step := 0,
    marks := Four.all MarkAction.plain }

/-- R176. -/
def Loader.reset : Loader :=
  { state := .idle, retry := 0, buffer := List.replicate 32 0, wait := none, bus := [] }

/-- R99, R116. -/
def Receiver.reset : Receiver :=
  { lock := .noSignal, silence := none }

/-- R118. -/
def Checker.reset : Checker :=
  { sync := .hunt, previous := none, clean := 0, bad := 0, qualified := false, frameErrors := 0, totalErrors := 0,
    capture := none }

/-- R116. -/
def Filter.reset : Filter :=
  { cellErrors := 0, stale := 0 }

/-- R131, R160. -/
def Ring.reset : Ring :=
  { state := .dark, role := .none, config := none, committed := none, lastEpoch := 0, launchNumber := 0,
    elected := false, commitEpoch := 0, noOrigin := false, demotion := none, relayCause := .none,
    rosterTimer := none, commitLimit := none, noOriginTimer := none, firstFrame := none, frameMissing := none,
    holdOff := none, beacon := none, lastHalt := none, haltCount := 0 }

/-- R22. -/
def Layers.reset : Layers :=
  { shadow := Four.all { setup := Setup.reset, pending := false },
    active := Four.all { setup := Setup.reset, current := 0 } }

/-- R57, R60; CUE_FRM deasserted (R184). -/
def Source.reset : Source :=
  { stores := Four.all [], mergeLine := none, lastMissed := Four.all none, missed := 0, refused := 0,
    lastReason := .none, cues := [], cueBegun := false, cueOut := [.idle] }

/-- R62. -/
def MergeStage.reset : MergeStage :=
  { lastTaken := none, mismatch := 0 }

/-- R76. -/
def OriginEngine.reset : OriginEngine :=
  { frameTimer := none, lineSlot := none, frameNumber := none, readyFrame := none, lines := [], nextSpan := 0,
    outstanding := [], lapCount := 0, lostByOrder := 0, lostByTime := 0, skipped := 0, stray := 0 }

/-- R112, R116. -/
def Transmitter.reset : Transmitter :=
  { forward := [], launch := [], overflow := 0, probePosition := 0, out := .silent }

/-- R162; TAP_FRM deasserted (log 33). -/
def Tap.reset : Tap :=
  { queue := [], openFrame := none, lastClosed := none, next := { line := 0, span := 0 }, dropsFrame := 0, drops := 0,
    controlLost := false, out := [.idle] }

/-- R172. -/
def BulletinUnit.reset : BulletinUnit :=
  { health := [], outstanding := none, lost := 0, skipped := 0 }

/-- R176. -/
def Pins.reset : Pins :=
  { ringOk := false, origin := false, fault := false }

/-- The station while a reset is held: every block at its reset values (R176). The serial is the model's choice
(log 6); `now` and `freeCount` are the model's own (log 28). -/
def State.reset : State :=
  { now := 0, inReset := true, serial := 1, loader := Loader.reset, rx := Receiver.reset, checker := Checker.reset,
    filter := Filter.reset, ring := Ring.reset, layers := Layers.reset, source := Source.reset,
    merge := MergeStage.reset, origin := OriginEngine.reset, tx := Transmitter.reset, tap := Tap.reset,
    bulletin := BulletinUnit.reset, pins := Pins.reset, freeCount := 0, pending := [] }

/-! ## One update per block -/

def State.setNow (s : State) (v : Nat) : State := { s with now := v }
def State.setInReset (s : State) (v : Bool) : State := { s with inReset := v }
def State.setLoader (s : State) (v : Loader) : State := { s with loader := v }
def State.setRx (s : State) (v : Receiver) : State := { s with rx := v }
def State.setChecker (s : State) (v : Checker) : State := { s with checker := v }
def State.setFilter (s : State) (v : Filter) : State := { s with filter := v }
def State.setRing (s : State) (v : Ring) : State := { s with ring := v }
def State.setLayers (s : State) (v : Layers) : State := { s with layers := v }
def State.setSource (s : State) (v : Source) : State := { s with source := v }
def State.setMerge (s : State) (v : MergeStage) : State := { s with merge := v }
def State.setOrigin (s : State) (v : OriginEngine) : State := { s with origin := v }
def State.setTx (s : State) (v : Transmitter) : State := { s with tx := v }
def State.setTap (s : State) (v : Tap) : State := { s with tap := v }
def State.setBulletin (s : State) (v : BulletinUnit) : State := { s with bulletin := v }
def State.setPins (s : State) (v : Pins) : State := { s with pins := v }
def State.setFreeCount (s : State) (v : Nat) : State := { s with freeCount := v }
def State.setPending (s : State) (v : List Instr) : State := { s with pending := v }

end Sys2Proof.Machine
end

