-- ==== Sys2Proof/Machine/Flags.lean ====
section
/-! DEFINITION. Counters that stop at their top, refusals, the status pins and the values of one committed ring that
other blocks read. -/
namespace Sys2Proof.Machine

/-- `k` more on a counter that stops at its highest value. -/
def satAdd {w : Nat} (c : BitVec w) (k : Nat) : BitVec w := BitVec.ofNat w (min (2 ^ w - 1) (c.toNat + k))

/-- One more on a counter that stops at its highest value. -/
def satInc {w : Nat} (c : BitVec w) : BitVec w := satAdd c 1

/-- `n` refusals with one reason (R56): each adds one to the refused records counter, and the reason becomes the last
refusal reason. No refusal changes nothing. -/
def State.refuse (s : State) (r : Reason) (n : Nat) : State :=
  if n = 0 then s
  else s.setSource { s.source with refused := satAdd s.source.refused n, lastReason := r }

/-- The pins follow the ring state and role (R149); FAULT is given with the relay causes and is not touched here. -/
def State.drivePins (s : State) : State :=
  s.setPins { s.pins with ringOk := s.ring.state == .run, origin := s.ring.state == .run && s.ring.role == .origin }

/-- FAULT at entry to RELAY (R136). -/
def RelayCause.fault : RelayCause → Bool
  | .none => false
  | .configAbsent => true
  | .configInvalid => true
  | .strapped => false
  | .duplicateId => true
  | .ringTooLong => true

/-- The committed epoch: 0 outside RUN (R131). -/
def State.epoch (s : State) : Byte :=
  match s.ring.committed with
  | none => 0
  | some c => c.epoch

/-- The committed format. Read only in RUN, where it is held; the value without one is never used (log 23). -/
def State.format (s : State) : Format :=
  match s.ring.committed with
  | none => { spans := 0, height := 0, rate := 0 }
  | some c => c.format

/-- The own position in the committed roster. -/
def State.position (s : State) : Option Nat :=
  match s.ring.committed with
  | none => none
  | some c => some c.position

/-- The configured station ID; 0 when no configuration was taken (R170). -/
def State.stationId (s : State) : Byte :=
  match s.ring.config with
  | none => 0
  | some c => c.stationId

/-- The eligible flag of the configuration copy; clear when no configuration was taken (R181). -/
def State.eligible (s : State) : Bool :=
  match s.ring.config with
  | none => false
  | some c => c.eligible

/-- The too-dense flag; clear when no configuration was taken (R181). -/
def State.tooDense (s : State) : Bool :=
  match s.ring.config with
  | none => false
  | some c => c.tooDense

/-- The configured lead (R58). -/
def State.lead (s : State) : Nat :=
  match s.ring.config with
  | none => 0
  | some c => c.lead

/-- The per-frame error sum of R126. -/
def State.errorSum (s : State) : Nat := s.checker.frameErrors.toNat + s.filter.cellErrors.toNat

/-- Use the next free choice (log 7): its value, and the state with one more used. -/
def State.freeChoice (s : State) : Bool × State := (Config.freeBit s.freeCount, s.setFreeCount (s.freeCount + 1))

end Sys2Proof.Machine
end

