-- ==== Sys2Proof/Machine/LayerUnit.lean ====
section
/-! DEFINITION. The layer unit (chapter 2): activation, window checks and fades at a FRAME mark. -/
namespace Sys2Proof.Machine

/-- The window fits the committed format (R29). -/
def Setup.fits (u : Setup) (f : Format) : Bool :=
  decide (u.x0 + u.width ≤ 32 * f.spans) && decide (u.y0 + u.height ≤ f.height)

/-- A withdrawn entry: base priority 0, every other field as it stood (R29, R30). -/
def ActiveEntry.withdraw (a : ActiveEntry) : ActiveEntry := { a with setup := { a.setup with base := 0 } }

/-- The window check: the entry, withdrawn where its window does not fit, and whether it was withdrawn. -/
def ActiveEntry.checkWindow (a : ActiveEntry) (f : Format) : ActiveEntry × Nat :=
  if a.setup.base != 0 && !a.setup.fits f then (a.withdraw, 1) else (a, 0)

/-- The fade step of one FRAME mark (R34). -/
def ActiveEntry.fade (a : ActiveEntry) : ActiveEntry :=
  if a.setup.base = 0 ∨ a.setup.step = 0 then a
  else if a.current < a.setup.target then { a with current := min (a.current + a.setup.step) a.setup.target }
  else if a.setup.target < a.current then { a with current := max (a.current - a.setup.step) a.setup.target }
  else a

/-- One layer at a FRAME mark: its shadow entry, its active entry and how many BAD_WINDOW withdrawals it brings (R28 to
R30, R34). `first` says that the mark is the first since entry to RUN. -/
def layerAtMark (f : Format) (first : Bool) (sh : ShadowEntry) (a : ActiveEntry) : ShadowEntry × ActiveEntry × Nat :=
  if sh.pending then
    let (a', n) := ActiveEntry.checkWindow { setup := sh.setup, current := sh.setup.cover } f
    ({ sh with pending := false }, a', n)
  else if first then
    let (a', n) := a.checkWindow f
    (sh, a'.fade, n)
  else (sh, a.fade, 0)

/-- The layer unit at a FRAME mark: both tables, and BAD_WINDOW counted once for each withdrawal. -/
def State.layersAtMark (s : State) (first : Bool) : State :=
  let f := s.format
  let l0 := layerAtMark f first s.layers.shadow.e0 s.layers.active.e0
  let l1 := layerAtMark f first s.layers.shadow.e1 s.layers.active.e1
  let l2 := layerAtMark f first s.layers.shadow.e2 s.layers.active.e2
  let l3 := layerAtMark f first s.layers.shadow.e3 s.layers.active.e3
  (s.setLayers { shadow := ⟨l0.1, l1.1, l2.1, l3.1⟩, active := ⟨l0.2.1, l1.2.1, l2.2.1, l3.2.1⟩ }).refuse .badWindow
    (l0.2.2 + l1.2.2 + l2.2.2 + l3.2.2)

/-- The count of active layers (R38). -/
def Layers.count (l : Layers) : Nat := (l.active.toList.filter (fun a => a.setup.base != 0)).length

/-- The current covers of layers 0 to 3. -/
def Layers.covers (l : Layers) : Four Nat := l.active.map ActiveEntry.current

/-- An accepted setup replaces its shadow entry and sets pending (R26). -/
def Layers.accept (l : Layers) (i : Fin 4) (u : Setup) : Layers :=
  { l with shadow := l.shadow.set i { setup := u, pending := true } }

end Sys2Proof.Machine
end

