-- ==== Sys2Proof/Machine/TapUnit.lean ====
section
/-! DEFINITION. The tap unit (chapter 10): what its queue takes and drops, frames opened and closed, RESULTs, and the
records it builds. -/
namespace Sys2Proof.Machine

/-- FRAME_BEGIN, FRAME_END and HALT_NOTICE: the records the last two places of the queue are kept for (R163). -/
def TapRecord.isControl : TapRecord → Bool
  | .frameBegin .. => true
  | .frameEnd .. => true
  | .haltNotice _ => true
  | .span _ => false
  | .gap .. => false
  | .bulletin _ => false
  | .status _ => false

/-- The records that carry the control record lost flag (R163). -/
def TapRecord.carriesLost : TapRecord → Bool
  | .frameEnd .. => true
  | .status _ => true
  | .frameBegin .. => false
  | .haltNotice _ => false
  | .span _ => false
  | .gap .. => false
  | .bulletin _ => false

/-- A record offered to the tap queue: taken at the tail, or dropped and counted (R163). -/
def Tap.offer (t : Tap) (r : TapRecord) : Tap :=
  if t.queue.length < (if r.isControl then 16 else 14) then
    { t with queue := t.queue ++ [r], controlLost := if r.carriesLost then false else t.controlLost }
  else
    { t with dropsFrame := satInc t.dropsFrame, drops := satInc t.drops,
             controlLost := if r.isControl then true else t.controlLost }

/-- The raster index of a position (R162). -/
def Pos.index (p : Pos) (f : Format) : Nat := p.line * f.spans + p.span

/-- The position of a raster index. -/
def posOf (f : Format) (r : Nat) : Pos := { line := r / f.spans, span := r % f.spans }

/-- How many spans a frame holds. -/
def Format.frameSpans (f : Format) : Nat := f.height * f.spans

/-- The GAP from the next expected position to the end of the open frame, where that is not past its end (R165). -/
def Tap.gapToEnd (t : Tap) (f : Format) : Tap :=
  match t.openFrame with
  | none => t
  | some o =>
    if t.next.index f < f.frameSpans then
      t.offer (.gap o.frame t.next.line t.next.span (f.frameSpans - t.next.index f))
    else t

/-- FRAME_END for the open frame, which becomes the last closed frame (R165, R166). -/
def Tap.endFrame (t : Tap) (truncated : Bool) (tr : Trailer) : Tap :=
  match t.openFrame with
  | none => t
  | some o =>
    { t.offer (.frameEnd o.frame truncated tr) with openFrame := none, lastClosed := some o.frame }

/-- FRAME_BEGIN; the frame is open and position 0, 0 is expected next (R165, R166). -/
def Tap.openNew (t : Tap) (frame : Half) (epoch : Byte) (implicit : Bool) : Tap :=
  { t.offer (.frameBegin frame epoch implicit) with
    openFrame := some { frame := frame, epoch := epoch, implicit := implicit }, next := { line := 0, span := 0 } }

/-! ## Records built from the whole station -/

/-- The counters of the origin, carried only by a sender in that role (R90). -/
def State.originCounters (s : State) (role : Role) : Option OriginCounters :=
  match role with
  | .origin =>
    some { byOrder := s.origin.lostByOrder, byTime := s.origin.lostByTime, skipped := s.origin.skipped }
  | .member => none
  | .none => none

/-- The counters a bulletin and a trailer share, as they stand (R168, R171). -/
def State.counters (s : State) (role : Role) : StationCounters :=
  { cellErrors := s.filter.cellErrors
    probeErrors := s.checker.frameErrors
    missed := s.source.missed
    refused := s.source.refused
    lastReason := s.source.lastReason
    tapDrops := s.tap.drops
    activeLayers := s.layers.count
    covers := s.layers.covers
    origin := s.originCounters role
    lastHalt := s.ring.lastHalt
    capture := s.checker.capture }

/-- The trailer of a FRAME_END built in this state (R168). -/
def State.trailer (s : State) (role : Role) : Trailer :=
  { counters := s.counters role
    dropsFrame := s.tap.dropsFrame
    mismatch := s.merge.mismatch
    stale := s.filter.stale
    overflow := s.tx.overflow
    probeErrors := s.checker.totalErrors
    bulletinsLost := s.bulletin.lost
    bulletinsSkipped := s.bulletin.skipped
    stray := match role with
      | .origin => some s.origin.stray
      | .member => none
      | .none => none
    controlLost := s.tap.controlLost }

/-- The STATUS record of a beacon (R170). -/
def State.status (s : State) : Status :=
  { stationId := s.stationId
    state := s.ring.state
    role := s.ring.role
    relayCause := s.ring.relayCause
    eligible := s.eligible
    tooDense := s.tooDense
    lock := s.rx.lock
    sync := s.checker.sync
    qualified := s.checker.qualified
    noOrigin := s.ring.noOrigin
    controlLost := s.tap.controlLost
    haltCount := s.ring.haltCount
    lastHalt := s.ring.lastHalt }

/-- A record is emitted. -/
def State.emit (s : State) (r : TapRecord) : State := s.setTap (s.tap.offer r)

/-! ## RESULTs at the tap (R166) -/

/-- Step 2 of R166 for a RESULT that opens its frame: close any open frame as at a FRAME mark, then FRAME_BEGIN with
the implicit flag set. The trailer holds the values that stand when the FRAME_END is built, after the GAP. -/
def State.openImplicit (s : State) (frame : Half) : State :=
  let s1 := s.setTap (s.tap.gapToEnd s.format)
  let s2 := s1.setTap (s1.tap.endFrame true (s1.trailer s1.ring.role))
  s2.setTap (s2.tap.openNew frame s2.epoch true)

/-- Steps 3 and 4 of R166, in the open frame. -/
def State.resultInFrame (s : State) (d : ResultData) : State :=
  let f := s.format
  let r := d.line * f.spans + d.span
  let e := s.tap.next.index f
  if r < e then s
  else
    let t1 := if e < r then s.tap.offer (.gap d.frame s.tap.next.line s.tap.next.span (r - e)) else s.tap
    let s2 := s.setTap { t1.offer (.span d) with next := posOf f (r + 1) }
    if r + 1 = f.frameSpans then s2.setTap (s2.tap.endFrame false (s2.trailer s2.ring.role)) else s2

/-- A RESULT handed to the tap unit (R166). -/
def State.tapResult (s : State) (d : ResultData) : State :=
  if s.format.height ≤ d.line ∨ s.format.spans ≤ d.span then s
  else if (s.tap.openFrame.map OpenFrame.frame) = some d.frame then s.resultInFrame d
  else if s.tap.lastClosed = some d.frame then s
  else (s.openImplicit d.frame).resultInFrame d

/-- The tap unit at a FRAME mark (R165). `before` is the station before the mark was taken: a FRAME_END built here
carries the values that stood then (R168). -/
def State.tapAtMark (s before : State) (frame : Half) : State :=
  let t1 := (s.tap.gapToEnd s.format).endFrame true (before.trailer before.ring.role)
  s.setTap ({ t1 with dropsFrame := 0 }.openNew frame s.epoch false)

/-- The role a FRAME_END built at halt entry is built under: whether the station still counts as the origin then is a
free choice, used only where it matters (log 10). -/
def State.roleAtHalt (s : State) : Role × State :=
  match s.ring.role, s.tap.openFrame with
  | .origin, some _ =>
    let (kept, s1) := s.freeChoice
    (if kept then .origin else .none, s1)
  | _, _ => (.none, s)

/-- The tap unit at halt entry (R169). -/
def State.tapAtHalt (s : State) (h : HaltRecord) : State :=
  let (role, s1) := s.roleAtHalt
  let t1 := s1.tap.endFrame true (s1.trailer role)
  s1.setTap
    { { t1 with openFrame := none, lastClosed := none }.offer (.haltNotice h) with dropsFrame := 0 }

end Sys2Proof.Machine
end

