-- ==== Sys2Proof/Machine/BulletinUnit.lean ====
section
/-! DEFINITION. The forward and local launch queues (R106 to R109) and the bulletin unit with its health table (R171 to
R175). -/
namespace Sys2Proof.Machine

/-- A cell handed to the forward queue: it joins the tail, or is discarded and counted where 4 cells are held
(R106). -/
def State.forward (s : State) (c : CellBytes) : State :=
  if s.tx.forward.length < 4 then s.setTx { s.tx with forward := s.tx.forward ++ [c] }
  else s.setTx { s.tx with overflow := satInc s.tx.overflow }

/-- The forward queue is emptied, uncounted (R107). -/
def State.flushForward (s : State) : State := s.setTx { s.tx with forward := [] }

/-- The local launch queue is emptied (R109). -/
def State.flushLaunch (s : State) : State := s.setTx { s.tx with launch := [] }

def LaunchCell.kind : LaunchCell → LaunchKind
  | .roster _ => .roster
  | .commit _ => .commit
  | .halt _ => .halt
  | .bulletin _ => .bulletin

/-- Whether a cell of a kind is queued. -/
def queuedKind (k : LaunchKind) (q : List LaunchCell) : Bool := q.any (fun c => c.kind == k)

/-- A cell placed in the local launch queue: at the tail, or in the place of the queued cell of its kind (R108). -/
def placeIn (c : LaunchCell) (q : List LaunchCell) : List LaunchCell :=
  if queuedKind c.kind q then q.map (fun d => if d.kind = c.kind then c else d) else q ++ [c]

def State.place (s : State) (c : LaunchCell) : State := s.setTx { s.tx with launch := placeIn c s.tx.launch }

/-- The station's own queued ROSTER is removed unsent (R109). -/
def State.dropRoster (s : State) : State :=
  s.setTx { s.tx with launch := s.tx.launch.filter (fun c => c.kind != .roster) }

/-! ## Health table -/

/-- An entry in which a bulletin is recorded (R175). -/
def HealthEntry.heard (e : HealthEntry) : HealthEntry := { e with age := 0, silent := false }

/-- An entry at a FRAME mark (R175). -/
def HealthEntry.aged (e : HealthEntry) : HealthEntry :=
  { e with age := satInc e.age, silent := e.silent || decide (3 ≤ (satInc e.age).toNat) }

/-- One entry for each position of the committed roster (R175). -/
def healthOf (roster : List RosterEntry) : List HealthEntry :=
  roster.map (fun e => { id := e.id, age := 0, silent := false })

/-- The positions whose entries are silent, from `i` on, in increasing order (R171). -/
def silentFrom : Nat → List HealthEntry → List Nat
  | _, [] => []
  | i, e :: es => if e.silent then i :: silentFrom (i + 1) es else silentFrom (i + 1) es

/-- A bulletin is recorded in the entry of a position. -/
def State.recordHealth (s : State) (p : Nat) : State :=
  s.setBulletin { s.bulletin with health := s.bulletin.health.modify p HealthEntry.heard }

/-! ## Bulletins -/

/-- The tap drops a bulletin carries: the cumulative count before or after what the tap unit drops at the same FRAME
mark. Where the two differ the spec does not say which, and the choice is free (log 9). -/
def State.bulletinDrops (s : State) (before after : Half) : Half × State :=
  if before = after then (after, s)
  else
    let (late, s1) := s.freeChoice
    (if late then after else before, s1)

/-- The bulletin unit at a FRAME mark (R172). `before` is the station before the mark: its per-frame counts are those
of the frame that ends (R171). The layer unit, source port and tap unit of `s` have already acted. -/
def State.bulletinAtMark (s before : State) (frame : Half) : State :=
  let s1 :=
    match s.bulletin.outstanding with
    | none => s
    | some _ => s.setBulletin { s.bulletin with lost := satInc s.bulletin.lost, outstanding := none }
  let (drops, s2) := s1.bulletinDrops before.tap.drops s1.tap.drops
  let k := s2.counters s2.ring.role
  let b : Bulletin :=
    { sender := s2.stationId, position := s2.position.getD 0, role := s2.ring.role, frame := frame
      counters :=
        { k with cellErrors := before.filter.cellErrors, probeErrors := before.checker.frameErrors,
                 tapDrops := drops }
      silent := silentFrom 0 s2.bulletin.health }
  let s3 :=
    if queuedKind .bulletin s2.tx.launch then
      s2.setBulletin { s2.bulletin with skipped := satInc s2.bulletin.skipped }
    else s2
  let s4 := s3.place (.bulletin b)
  s4.setBulletin { s4.bulletin with health := s4.bulletin.health.map HealthEntry.aged }

/-- The station's own BULLETIN departs: outstanding, tapped, heard (R173), and a capture it carries is emptied and
re-armed (R129). -/
def State.bulletinDeparts (s : State) (b : Bulletin) : State :=
  let s1 := s.setBulletin { s.bulletin with outstanding := some b.frame }
  let s2 := s1.emit (.bulletin b.bytes)
  let s3 := s2.recordHealth b.position
  if b.counters.capture.isSome then s3.setChecker { s3.checker with capture := none } else s3

/-- The bulletin unit at halt entry (R172). -/
def State.bulletinAtHalt (s : State) : State := s.setBulletin { s.bulletin with health := [], outstanding := none }

end Sys2Proof.Machine
end

