-- ==== Sys2Proof/Machine/MergeRule.lean ====
section
/-! DEFINITION. The merge rule (chapter 1): a station's candidates at one position, insertion into a pair, and
resolve. -/
namespace Sys2Proof.Machine

/-- An empty pair (R2). -/
def Pair.empty : Pair :=
  { top := { priority := 0, colour := Colour.zero, cover := 0, solid := false, station := 0, layer := 0 }
    second := { priority := 0, colour := Colour.zero, cover := 0 } }

/-- The window of an entry covers position (x, y) (R5). -/
def Setup.covers (u : Setup) (x y : Nat) : Bool :=
  u.x0 ≤ x && x < u.x0 + u.width && u.y0 ≤ y && y < u.y0 + u.height

/-- An entry takes part at (x, y) (R5). -/
def ActiveEntry.takesPart (a : ActiveEntry) (x y : Nat) : Bool := a.setup.base != 0 && a.setup.covers x y

/-- The slot of a store for a line (R6). -/
def findSlot (store : List Slot) (y : Nat) : Option Slot := store.find? (fun l => l.line == y)

/-- The candidate a pixel gives in a layer (R4, R7, R8). -/
def candidateOf (station : Byte) (layer : Nat) (a : ActiveEntry) (p : Pixel) : Option Candidate :=
  match a.setup.marks.get p.mark with
  | .plain =>
    some { priority := a.setup.base, colour := p.colour, cover := a.current, solid := false, station := station,
           layer := layer }
  | .lift =>
    some { priority := min (a.setup.base + 1) 7, colour := p.colour, cover := a.current, solid := false,
           station := station, layer := layer }
  | .solid =>
    some { priority := a.setup.base, colour := p.colour, cover := 16, solid := true, station := station,
           layer := layer }
  | .hole => none

/-- The candidate of layer `i` at (x, y), if it forms one (R5 to R8). -/
def formCandidate (station : Byte) (active : Four ActiveEntry) (stores : Four (List Slot)) (x y : Nat) (i : Fin 4) :
    Option Candidate :=
  let a := active.get i
  if a.takesPart x y then
    match findSlot (stores.get i) y with
    | none => none
    | some slot =>
      match slot.pixels[x - a.setup.x0]? with
      | none => none
      | some p => candidateOf station i.val a p
  else none

/-- What a candidate keeps when it stands as the second (R2). -/
def Candidate.asSecond (c : Candidate) : Second := { priority := c.priority, colour := c.colour, cover := c.cover }

/-- Insertion (R10). -/
def Pair.insert (p : Pair) (c : Candidate) : Pair :=
  if p.top.priority < c.priority then { top := c, second := p.top.asSecond }
  else if p.second.priority < c.priority then { p with second := c.asSecond }
  else p

/-- Insertion of what a layer formed, if anything. -/
def Pair.insert? (p : Pair) (c : Option Candidate) : Pair :=
  match c with
  | none => p
  | some c => p.insert c

/-- The work of a station at one position: layers 0 to 3 in turn (R9). -/
def mergePosition (station : Byte) (active : Four ActiveEntry) (stores : Four (List Slot)) (x y : Nat) (p : Pair) :
    Pair :=
  (((p.insert? (formCandidate station active stores x y 0)).insert?
    (formCandidate station active stores x y 1)).insert?
    (formCandidate station active stores x y 2)).insert?
    (formCandidate station active stores x y 3)

/-- The work at successive positions from `x` on (R9). -/
def mergeFrom (station : Byte) (active : Four ActiveEntry) (stores : Four (List Slot)) (y : Nat) :
    Nat → List Pair → List Pair
  | _, [] => []
  | x, p :: ps => mergePosition station active stores x y p :: mergeFrom station active stores y (x + 1) ps

/-! ## Resolve -/

/-- The ring's three values of R13. -/
structure BlendValues where
  mode : WeightMode
  backdrop : Colour
  cover : Nat
  deriving DecidableEq, Repr

/-- One component of the blend (R16). -/
def blendComponent (c : Nat) (t o : Byte) : Byte := BitVec.ofNat 8 ((c * t.toNat + (16 - c) * o.toNat + 8) / 16)

/-- The blend of two colours (R16). -/
def blend (c : Nat) (t o : Colour) : Colour :=
  { r := blendComponent c t.r o.r, g := blendComponent c t.g o.g, b := blendComponent c t.b o.b }

/-- The cover and the other colour of the blend case (R15), covers above 16 read as 16 (R13). -/
def blendOf (v : BlendValues) (p : Pair) : Nat × Colour :=
  match v.mode, p.second.priority with
  | .top, 0 => (min p.top.cover 16, v.backdrop)
  | .top, _ + 1 => (min p.top.cover 16, p.second.colour)
  | .second, 0 => (v.cover, v.backdrop)
  | .second, _ + 1 => (min p.second.cover 16, p.second.colour)

/-- The output colour of a pair (R14). -/
def resolve (v : BlendValues) (p : Pair) : Colour :=
  if p.top.priority = 0 then v.backdrop
  else if p.top.solid then p.top.colour
  else blend (blendOf v p).1 p.top.colour (blendOf v p).2

end Sys2Proof.Machine
end

