-- ==== Sys2Proof/Machine/LineStores.lean ====
section
/-! DEFINITION. The line stores and cues (chapter 3): line-begun and line-ended events, reads and underruns, releases
and the cue queue. -/
namespace Sys2Proof.Machine

/-- How many slots of a store satisfy `p` and have never been read: what a release of them counts as UNUSED. -/
def unreadOf (p : Slot → Bool) (store : List Slot) : Nat := (store.filter (fun l => p l && !l.read)).length

/-- A store without the slots that satisfy `p`. -/
def releaseOf (p : Slot → Bool) (store : List Slot) : List Slot := store.filter (fun l => !p l)

/-- Release from each store the slots that satisfy `p`, each unread one counting one UNUSED refusal (R49, R51, R52). -/
def State.release (s : State) (p : Slot → Bool) : State :=
  (s.setSource { s.source with stores := s.source.stores.map (releaseOf p) }).refuse .unused
    (unreadOf p s.source.stores.e0 + unreadOf p s.source.stores.e1 + unreadOf p s.source.stores.e2 +
      unreadOf p s.source.stores.e3)

/-- The line-begun event for line `y` (R49). -/
def State.lineBegun (s : State) (y : Nat) : State :=
  (s.setSource { s.source with mergeLine := some y }).release (fun l => decide (l.line < y))

/-- The line-ended event for line `y` (R51). -/
def State.lineEnded (s : State) (y : Nat) : State := s.release (fun l => l.line == y)

/-- A cue joins the tail of the cue queue, or is discarded while 8 are in it (R57). -/
def State.issueCue (s : State) (line : Nat) : State :=
  if s.source.cues.length < 8 then
    s.setSource
      { s.source with cues := s.source.cues ++ [{ frame := s.merge.lastTaken.getD 0, line := line }] }
  else s

/-- The cue of a line start: for line y + lead, while that lies within the picture (R58). -/
def State.lineStartCue (s : State) (y : Nat) : State :=
  if y + s.lead < s.format.height then s.issueCue (y + s.lead) else s

/-- The first cues of a frame: lines 0 to lead - 1 (R58). -/
def State.frameCues (s : State) : State := (List.range s.lead).foldl State.issueCue s

/-- The source port at a FRAME mark (R52). -/
def State.sourceAtMark (s : State) : State :=
  let s1 := s.release (fun _ => true)
  (s1.setSource { s1.source with mergeLine := none, lastMissed := Four.all none }).frameCues

/-- The underrun event for a layer and line (R55). -/
def State.underrun (s : State) (i : Fin 4) (y : Nat) : State :=
  if s.source.lastMissed.get i = some y then s
  else
    s.setSource
      { s.source with lastMissed := s.source.lastMissed.set i (some y), missed := satInc s.source.missed }

/-- The read flag of the slot for line `y` is set (R50). -/
def markRead (y : Nat) (store : List Slot) : List Slot :=
  store.map (fun l => if l.line = y then { l with read := true } else l)

/-- A layer takes part at some position of a span (R5). -/
def ActiveEntry.takesPartInSpan (a : ActiveEntry) (span y : Nat) : Bool :=
  (List.range 32).any (fun i => a.takesPart (32 * span + i) y)

/-- What the merge of one cell does to a layer's store (R50): where the layer takes part at some position, its slot for
the line is read, or an underrun is handed. One read or underrun stands for those of all the positions (log 16). -/
def State.readStore (s : State) (span y : Nat) (i : Fin 4) : State :=
  if (s.layers.active.get i).takesPartInSpan span y then
    match findSlot (s.source.stores.get i) y with
    | some _ =>
      s.setSource
        { s.source with stores := s.source.stores.set i (markRead y (s.source.stores.get i)) }
    | none => s.underrun i y
  else s

/-- The reads of one merged cell, layer by layer. -/
def State.readStores (s : State) (span y : Nat) : State :=
  (((s.readStore span y 0).readStore span y 1).readStore span y 2).readStore span y 3

/-- The pairs of a cell of line `y` and span `span` after this station's candidates (R9). -/
def State.mergedPairs (s : State) (span y : Nat) (ps : List Pair) : List Pair :=
  mergeFrom s.stationId s.layers.active s.source.stores y (32 * span) ps

/-- Whether the head cue has begun to leave when a halt is entered (R57): it has where that is known already, it has not
where no cue is queued, and else it is a free choice (log 8). -/
def State.cueBegunAtHalt (s : State) : Bool × State :=
  match s.source.cues, s.source.cueBegun with
  | [], _ => (false, s)
  | _ :: _, true => (true, s)
  | _ :: _, false => s.freeChoice

/-- The source port at halt entry (R61, R57): stores emptied uncounted, current merge line and last missed lines none,
unsent cues discarded. A cue that has begun to leave stays at the head, known to have begun, until it has left. -/
def State.sourceAtHalt (s : State) : State :=
  let (begun, s1) := s.cueBegunAtHalt
  s1.setSource
    { s1.source with
      stores := Four.all [], mergeLine := none, lastMissed := Four.all none,
      cues := if begun then s1.source.cues.take 1 else [], cueBegun := begun }

end Sys2Proof.Machine
end

