-- ==== Sys2Proof/Machine/Timing.lean ====
section
/-! DEFINITION. Time, in REFCK periods of 50 ns: one departure opportunity a period (R110, chapter 12 ratings). -/
namespace Sys2Proof.Machine

/-- REFCK periods in one second. -/
def periodsPerSecond : Nat := 20000000

/-- REFCK periods in `n` microseconds. -/
def micro (n : Nat) : Nat := 20 * n

/-- The silence timer's 10 µs (R99). -/
def silencePeriods : Nat := micro 10
/-- The lap limit, 20 µs (R75). -/
def lapLimitPeriods : Nat := micro 20
/-- The roster interval, 2 ms (R138). -/
def rosterPeriods : Nat := micro 2000
/-- The commit limit, 2 ms (R141). -/
def commitPeriods : Nat := micro 2000
/-- The no-origin time, 20 ms (R147). -/
def noOriginPeriods : Nat := micro 20000
/-- The hold-off, 1 ms (R156). -/
def holdOffPeriods : Nat := micro 1000
/-- The beacon interval, 1 ms (R170). -/
def beaconPeriods : Nat := micro 1000
/-- The wait before a new read attempt, 1 ms (R177). -/
def retryPeriods : Nat := micro 1000

/-- Frames per second of a rate code (chapter 5.2). The codes end at 6; no other code is ever committed (R142). -/
def framesPerSecond (rate : Nat) : Nat :=
  match rate with
  | 0 => 24
  | 1 => 25
  | 2 => 30
  | 3 => 50
  | 4 => 60
  | 5 => 100
  | 6 => 120
  | _ => 0

/-- A quotient rounded up. -/
def ceilDiv (a b : Nat) : Nat := (a + b - 1) / b

/-- REFCK periods from the start of the frame timer to its `n`-th expiry (R77). -/
def frameExpiry (f : Format) (n : Nat) : Nat := n * periodsPerSecond / framesPerSecond f.rate

/-- REFCK periods from the start of the frame timer to the end of its `j`-th line period (R77). -/
def linePeriodEnd (f : Format) (j : Nat) : Nat :=
  j * periodsPerSecond / (framesPerSecond f.rate * (f.height + 8))

/-- The cell budget B: cells that fit in one line period (R180). -/
def cellBudget (f : Format) : Nat := periodsPerSecond / (framesPerSecond f.rate * (f.height + 8))

/-- The first-frame limit: the commit limit and two frame periods, rounded up (R151). -/
def firstFramePeriods (f : Format) : Nat := commitPeriods + ceilDiv (2 * periodsPerSecond) (framesPerSecond f.rate)

/-- The frame-missing limit: 2.5 frame periods, rounded up (R151). -/
def frameMissingPeriods (f : Format) : Nat := ceilDiv (5 * periodsPerSecond / 2) (framesPerSecond f.rate)

/-- When a running frame timer expires next (R77). -/
def FrameTimer.due (t : FrameTimer) (f : Format) : Nat := t.start + frameExpiry f t.next

/-- When slot `k` falls, after the latest expiry of the frame timer: `k` line periods after the line period that ended
there (R80). -/
def FrameTimer.slotDue (t : FrameTimer) (f : Format) (k : Nat) : Nat :=
  t.start + linePeriodEnd f ((t.next - 1) * (f.height + 8) + k)

/-- The count of REFCK periods has reached `d` (log 3). -/
def State.reach (s : State) (d : Nat) : State := s.setNow (max s.now d)

/-- A timer started now, to expire after `n` REFCK periods. -/
def State.after (s : State) (n : Nat) : Timer := some (s.now + n)

end Sys2Proof.Machine
end

