-- ==== Sys2Proof/Machine/OriginUnit.lean ====
section
/-! DEFINITION. The origin engine (chapter 5): start, frame and line timing, what it offers the transmitter, returns
and losses. -/
namespace Sys2Proof.Machine

/-- The values of R76 and R94: everything but the four counters as after reset. -/
def OriginEngine.cleared (o : OriginEngine) : OriginEngine :=
  { OriginEngine.reset with
    lostByOrder := o.lostByOrder, lostByTime := o.lostByTime, skipped := o.skipped, stray := o.stray }

/-- The engine at the event that gives the station the origin role, at time `now` (R76, R77). -/
def OriginEngine.started (o : OriginEngine) (now : Nat) : OriginEngine :=
  { o.cleared with frameTimer := some { start := now, next := 1 } }

/-- The number of the frame that begins at a frame timer expiry (R77). -/
def OriginEngine.nextNumber (o : OriginEngine) : Half :=
  match o.frameNumber with
  | none => 0
  | some n => n + 1

/-- A frame timer expiry (R77, R78). -/
def OriginEngine.frameExpired (o : OriginEngine) (t : FrameTimer) : OriginEngine :=
  { o with
    frameTimer := some { t with next := t.next + 1 }
    frameNumber := some o.nextNumber
    skipped := satAdd o.skipped o.lines.length
    lines := []
    nextSpan := 0
    lineSlot := some 1
    readyFrame := some o.nextNumber }

/-- The line that slot `k` brings: image line k - 8, for slots from 8 on (R80). -/
def OriginEngine.slotLine (o : OriginEngine) (k : Nat) : OriginEngine :=
  if k < 8 then o
  else if o.lines.length < 2 then { o with lines := o.lines ++ [k - 8] }
  else { o with skipped := satInc o.skipped }

/-- An expiry of the line slot timer for slot `k`, in a picture of a height (R80). -/
def OriginEngine.slotExpired (o : OriginEngine) (height k : Nat) : OriginEngine :=
  { o.slotLine k with lineSlot := if k < height + 7 then some (k + 1) else none }

/-- The offered FRAME: ready and not held by an entry of another frame (R79). -/
def OriginEngine.offeredFrame (o : OriginEngine) : Option Half :=
  match o.readyFrame with
  | none => none
  | some f => if o.outstanding.all (fun e => e.frame == f) then some f else none

/-- The line of the offered merge launch, if one is offered (R83). -/
def OriginEngine.offeredMerge (o : OriginEngine) : Option Nat :=
  match o.lines, o.readyFrame with
  | y :: _, none => if o.outstanding.length < 64 then some y else none
  | _, _ => none

/-- The head of the outstanding list, where it can be sent (R91). -/
def OriginEngine.sendable (o : OriginEngine) : Option (OutEntry × List OutEntry) :=
  match o.outstanding with
  | [] => none
  | e :: rest => if e.state = .inFlight then none else some (e, rest)

/-- What the engine does at a merge launch of line `y`, at time `now`, in a picture S spans wide (R84). -/
def OriginEngine.launched (o : OriginEngine) (spans y now : Nat) : OriginEngine :=
  let entry : OutEntry :=
    { frame := o.frameNumber.getD 0, line := y, span := o.nextSpan, launch := now, state := .inFlight }
  if o.nextSpan + 1 = spans then
    { o with outstanding := o.outstanding ++ [entry], lines := o.lines.drop 1, nextSpan := 0 }
  else { o with outstanding := o.outstanding ++ [entry], nextSpan := o.nextSpan + 1 }

/-- An entry is the one in flight that a return names (R87). -/
def OutEntry.isReturn (e : OutEntry) (frame : Half) (line span : Nat) : Bool :=
  e.state == .inFlight && e.frame == frame && e.line == line && e.span == span

/-- The list after a matched return: IN_FLIGHT entries before the match become LOST, the match becomes RESOLVED. With
it the number lost by order; none where nothing matches (R87). -/
def matchReturn (frame : Half) (line span : Nat) (colours : List Colour) :
    List OutEntry → Option (List OutEntry × Nat)
  | [] => none
  | e :: rest =>
    if e.isReturn frame line span then some ({ e with state := .resolved colours } :: rest, 0)
    else
      match matchReturn frame line span colours rest with
      | none => none
      | some (rest', n) =>
        if e.state = .inFlight then some ({ e with state := .lost } :: rest', n + 1) else some (e :: rest', n)

/-- A MERGE cell of the committed epoch returns (R87). -/
def OriginEngine.returned (o : OriginEngine) (v : BlendValues) (m : MergeCell) : OriginEngine :=
  match matchReturn m.frame m.line m.span (m.pairs.map (resolve v)) o.outstanding with
  | none => { o with stray := satInc o.stray }
  | some (entries, n) =>
    { o with outstanding := entries, lostByOrder := satAdd o.lostByOrder n, lapCount := 0 }

/-- The list with its oldest IN_FLIGHT entry LOST, and that entry's launch time; none where no entry is in flight. -/
def loseOldest : List OutEntry → Option (List OutEntry × Nat)
  | [] => none
  | e :: rest =>
    if e.state = .inFlight then some ({ e with state := .lost } :: rest, e.launch)
    else
      match loseOldest rest with
      | none => none
      | some (rest', t) => some (e :: rest', t)

/-- An expiry of the lap limit, less the halt it may raise (R88). -/
def OriginEngine.lapExpired (o : OriginEngine) (entries : List OutEntry) : OriginEngine :=
  { o with outstanding := entries, lostByTime := satInc o.lostByTime, lapCount := o.lapCount + 1 }

/-- The ring's blending values (R13). -/
def State.blendValues (s : State) : BlendValues :=
  match s.ring.committed with
  | none => { mode := .top, backdrop := Colour.zero, cover := 0 }
  | some c => { mode := c.mode, backdrop := c.backdrop, cover := c.backdropCover }

/-- The RESULT of a sendable entry (R91): its resolved colours, or the backdrop at every position and the LOST
flag. -/
def State.resultOf (s : State) (e : OutEntry) : ResultData :=
  match e.state with
  | .resolved cs => { frame := e.frame, line := e.line, span := e.span, lost := false, colours := cs }
  | .lost =>
    { frame := e.frame, line := e.line, span := e.span, lost := true
      colours := List.replicate 32 s.blendValues.backdrop }
  | .inFlight =>
    { frame := e.frame, line := e.line, span := e.span, lost := true
      colours := List.replicate 32 s.blendValues.backdrop }

end Sys2Proof.Machine
end

