-- ==== Sys2Proof/Machine/ProbeSequence.lean ====
section
/-! DEFINITION. The probe byte stream of R112, which the generator sends and every link checker compares with. -/
namespace Sys2Proof.Machine

/-- One bit of the shift register: stage n is bit n - 1; stages 1 to 6 move up, and stage 1 takes the exclusive-or of
stages 7 and 6 (R112). -/
def lfsrStep (st : BitVec 7) : BitVec 7 :=
  (st <<< 1) ||| BitVec.setWidth 7 (BitVec.ofBool (st.getLsbD 6 ^^ st.getLsbD 5))

/-- The register after `n` bits, from all stages at 1. -/
def lfsrAfter : Nat → BitVec 7
  | 0 => 0x7F
  | n + 1 => lfsrStep (lfsrAfter n)

/-- Bit `n` of the stream: the value of stage 7. The register has a period of 127 bits (R112). -/
def probeBit (n : Nat) : Bool := (lfsrAfter (n % 127)).getLsbD 6

/-- The byte at byte position `p`, its first bit most significant (R112). -/
def probeByte (p : Nat) : Byte :=
  BitVec.ofNat 8 ((List.range 8).foldl (fun a i => 2 * a + (probeBit (8 * p + i)).toNat) 0)

/-- The 24 bytes of the stream from byte position `p` (R113). -/
def probeRun (p : Nat) : List Byte := (List.range 24).map (fun i => probeByte ((p + i) % 127))

/-- Twenty-four byte positions further on (R113). -/
def probeAdvance (p : Nat) : Nat := (p + 24) % 127

/-- The sequence bytes that differ from the checker's copy, in order of arrival, with their byte positions: expected
byte, actual byte, position (R117). -/
def byteMismatches (start : Nat) (arrived : List Byte) : List (Byte × Byte × Nat) :=
  (List.range 24).filterMap (fun i =>
    let q := (start + i) % 127
    if byteAt arrived i = probeByte q then none else some (probeByte q, byteAt arrived i, q))

end Sys2Proof.Machine
end

