-- ==== Sys2Proof/Machine/Ops.lean ====
section
/-! DEFINITION. The operations several commands share: the FRAME mark, entry to HALT and to the other ring states,
notices from the receiver and the link checker, and the arrival of a cell. -/
namespace Sys2Proof.Machine

/-! ## Taking a FRAME mark (R63) -/

/-- The ring controller's timers at a FRAME mark (R151). The origin runs neither. -/
def State.ringAtMark (s : State) : State :=
  if s.ring.role = .member then
    s.setRing { s.ring with firstFrame := none, frameMissing := s.after (frameMissingPeriods s.format) }
  else s

/-- The per-frame error counts are cleared (R102, R125). -/
def State.clearFrameErrors (s : State) : State :=
  (s.setChecker { s.checker with frameErrors := 0 }).setFilter { s.filter with cellErrors := 0 }

/-- The station takes the FRAME mark of a frame: every owner of the table under R63 acts. UNUSED is counted before
BAD_WINDOW (R56); the bulletin shows both (R38). -/
def State.takeFrameMark (s : State) (frame : Half) : State :=
  let s1 := s.setMerge { s.merge with lastTaken := some frame }
  let s2 := s1.sourceAtMark
  let s3 := s2.layersAtMark s.merge.lastTaken.isNone
  let s4 := s3.ringAtMark
  let s5 := s4.tapAtMark s frame
  let s6 := s5.bulletinAtMark s frame
  s6.clearFrameErrors

/-! ## Halt entry (R152, R154) -/

/-- The link checker at halt entry (R130). -/
def Checker.atHalt (c : Checker) : Checker := { c with clean := 0, qualified := false, frameErrors := 0 }

/-- The ring controller at halt entry: steps 3 and 4 of R152, and the beacon timer, which starts when the station comes
from RUN (R170). The record and the count of step 2 are made before. -/
def Ring.atHalt (r : Ring) (now : Nat) : Ring :=
  { r with
    state := .halt, role := .none, committed := none, elected := false, noOrigin := false
    rosterTimer := none, commitLimit := none, noOriginTimer := none, firstFrame := none, frameMissing := none
    holdOff := some (now + holdOffPeriods)
    beacon := if r.state = .run then some (now + beaconPeriods) else r.beacon }

/-- The last halt is recorded and counted (R160). -/
def Ring.recordHalt (r : Ring) (h : HaltRecord) : Ring :=
  { r with lastHalt := some h, haltCount := satInc r.haltCount }

/-- Entry to HALT, raised or accepted (R152, R154): the halt is recorded, every owner acts, and the HALT cell is placed
in the emptied local launch queue. -/
def State.enterHalt (s : State) (h : HaltRecord) (cell : CellBytes) : State :=
  let s1 := s.setRing (s.ring.recordHalt h)
  let s2 := s1.tapAtHalt h
  let s3 := s2.sourceAtHalt
  let s4 := s3.bulletinAtHalt
  let s5 := s4.setMerge { s4.merge with lastTaken := none }
  let s6 := s5.setOrigin s5.origin.cleared
  let s7 := s6.setChecker s6.checker.atHalt
  let s8 := s7.setFilter { s7.filter with cellErrors := 0 }
  let s9 := s8.setRing (s8.ring.atHalt s8.now)
  let s10 := s9.drivePins
  s10.setTx { s10.tx with forward := [], launch := [.halt cell] }

/-- The station raises a halt with a cause and the epoch R153 gives. -/
def State.raiseHalt (s : State) (cause : HaltCause) (epoch : Byte) : State :=
  let h : HaltRecord := { cause := cause, reporter := s.stationId, epoch := epoch }
  s.enterHalt h (haltCellOf h)

/-- A halt raised in RUN carries the committed epoch (R153). -/
def State.raiseInRun (s : State) (cause : HaltCause) : State := s.raiseHalt cause s.epoch

/-- A fault during the hold-off (R157). -/
def State.faultInHoldOff (s : State) : State :=
  s.setRing { s.ring with holdOff := s.after holdOffPeriods, haltCount := satInc s.ring.haltCount }

/-! ## Entry to LISTEN, ROLL and RELAY -/

/-- The station's own roster entry (R138, R139). -/
def State.ownEntry (s : State) : RollEntry :=
  { id := s.stationId, serial := s.serial, eligible := s.eligible, lastEpoch := s.ring.lastEpoch }

/-- The station launches a roster with its next launch number (R138). -/
def State.launchRoster (s : State) : State :=
  let n := s.ring.launchNumber + 1
  let s1 := s.setRing { s.ring with launchNumber := n }
  s1.place
    (.roster { originator := s.stationId, serial := s.serial, launch := n, count := 1, entries := [s.ownEntry] })

/-- Entry to ROLL (R134). -/
def State.enterRoll (s : State) : State :=
  let s1 := s.setRing { s.ring with state := .roll, elected := false, noOrigin := false }
  if s1.eligible then s1.launchRoster
  else s1.setRing { s1.ring with noOriginTimer := s1.after noOriginPeriods }

/-- The condition for ROLL, tested in LISTEN (R133). -/
def State.tryRoll (s : State) : State :=
  if s.ring.state = .listen ∧ s.rx.lock = .locked ∧ s.checker.qualified = true then s.enterRoll else s

/-- A station in ROLL returns silently to LISTEN (R135, R107, R109). -/
def State.returnToListen (s : State) : State :=
  let s1 :=
    s.setRing
      { s.ring with state := .listen, rosterTimer := none, commitLimit := none, noOriginTimer := none,
                    elected := false, noOrigin := false }
  s1.setTx { s1.tx with forward := [], launch := [] }

/-- Entry to RELAY with a cause (R136, R107, R109): both queues emptied, FAULT as the cause gives. -/
def State.enterRelay (s : State) (cause : RelayCause) : State :=
  let s1 := s.setRing { s.ring with state := .relay, relayCause := cause }
  let s2 := s1.setPins { s1.pins with fault := cause.fault }
  s2.setTx { s2.tx with forward := [], launch := [] }

/-- The beacon timer is started (R170). -/
def State.startBeacon (s : State) : State := s.setRing { s.ring with beacon := s.after beaconPeriods }

/-! ## Entry to RUN (R144, R145) -/

/-- What the COMMIT gives a station that accepts it (R144, R145). -/
def CommitCell.committed (c : CommitCell) (position : Nat) (mode : WeightMode) : Committed :=
  { roster := c.entries, position := position, format := c.format, mode := mode, backdrop := c.backdrop
    backdropCover := c.backdropCover, epoch := c.epoch }

/-- The ring controller at entry to RUN. -/
def Ring.atRun (r : Ring) (role : Role) (c : Committed) (firstFrame : Timer) : Ring :=
  { r with
    state := .run, role := role, committed := some c, lastEpoch := c.epoch, elected := false, noOrigin := false
    rosterTimer := none, commitLimit := none, noOriginTimer := none, firstFrame := firstFrame, beacon := none }

/-- Entry to RUN in a role: the owners of the table after R146 act. -/
def State.enterRun (s : State) (role : Role) (c : Committed) (firstFrame : Timer) : State :=
  let s1 := s.setRing (s.ring.atRun role c firstFrame)
  let s2 := s1.drivePins
  let s3 := s2.dropRoster
  let s4 := s3.clearFrameErrors
  let s5 := s4.setMerge { s4.merge with lastTaken := none }
  s5.setBulletin { s5.bulletin with health := healthOf c.roster }

/-! ## Notices -/

/-- The link checker on a lock lost notice (R124). -/
def Checker.lockLost (c : Checker) : Checker :=
  { c with sync := .hunt, previous := none, clean := 0, bad := 0, qualified := false }

/-- The ring controller and the transmitter on a lock lost notice (R101, R115, R127, R150, R157). -/
def State.lockLostNotice (s : State) : State :=
  match s.ring.state with
  | .dark => s
  | .listen => s
  | .roll => s.returnToListen
  | .run => s.raiseInRun .lockLost
  | .halt => s.faultInHoldOff
  | .relay => s.flushForward

/-- The ring controller on a sync lost notice (R127). -/
def State.syncLostNotice (s : State) : State :=
  match s.ring.state with
  | .dark => s
  | .listen => s
  | .roll => s.returnToListen
  | .run => s.raiseInRun .degraded
  | .halt => s.faultInHoldOff
  | .relay => s

/-- The per-frame error sum of a station in RUN has come to its degrade threshold by a change (R126). -/
def State.degraded (s before : State) : Bool :=
  s.ring.state == .run && s.errorSum != before.errorSum &&
    (match s.ring.config with
     | none => false
     | some c => decide (c.threshold ≤ s.errorSum))

/-- The degrade test after a change of either count (R126). -/
def State.degradeTest (s before : State) : State := if s.degraded before then s.raiseInRun .degraded else s

/-! ## The arrival of a cell -/

/-- A step that happens only while no reset is held (R176; log 5). -/
def State.live (s : State) (f : State → State) : State := if s.inReset then s else f s

/-- The cell began at a valid boundary, one cell period before it is taken whole: the silence timer was restarted there
(R99; log 21). -/
def State.validBoundary (s : State) : State :=
  s.setRx { s.rx with silence := some (s.now + (silencePeriods - 1)) }

/-- A cell taken whole: only in LOCKED (R100). -/
def State.arrive (s : State) (f : State → State) : State :=
  s.live fun s => if s.rx.lock = .locked then f s.validBoundary else s

/-- A cell of a stale epoch or unknown kind is discarded and counted in RUN (R104, R105). -/
def State.countStale (s : State) : State := s.setFilter { s.filter with stale := satInc s.filter.stale }

/-- The cell filter on a FRAME, MERGE, RESULT or BULLETIN cell (R103, R104): what a member or the origin does with a
cell of the committed epoch is given. -/
def State.filterPicture (s : State) (c : CellBytes) (member origin : State → State) : State :=
  match s.ring.state with
  | .dark => s
  | .listen => s
  | .roll => s
  | .halt => s
  | .relay => s.forward c
  | .run =>
    if cellEpoch c ≠ s.epoch then s.countStale
    else if s.ring.role = .origin then origin s
    else member s

end Sys2Proof.Machine
end

