-- ==== Sys2Proof/Machine/DepartureCommand.lean ====
section
/-! DEFINITION. The DEPARTURE_OPPORTUNITY command: the transmitter's arbiter and what each departure does (R110 to R113,
R72, R79, R84, R91). -/
namespace Sys2Proof.Machine

/-- The first choice that is available. -/
def orElse (first : Option Departure) (rest : Departure) : Departure :=
  match first with
  | some d => d
  | none => rest

/-- The forward head. -/
def State.forwardHead (s : State) : Option Departure :=
  match s.tx.forward with
  | [] => none
  | c :: rest => some (.forward c rest)

/-- The launch head. -/
def State.launchHead (s : State) : Option Departure :=
  match s.tx.launch with
  | [] => none
  | c :: rest => some (.launch c rest)

/-- The outstanding head, if RESOLVED or LOST. -/
def State.outstandingHead (s : State) : Option Departure :=
  match s.origin.sendable with
  | none => none
  | some (e, rest) => some (.result e rest)

/-- The arbiter: the first available cell in the order for the ring state and role (R110). -/
def State.choose (s : State) : Departure :=
  match s.ring.state with
  | .dark => .silent
  | .listen => .probe
  | .roll => orElse s.forwardHead (orElse s.launchHead .probe)
  | .run =>
    match s.ring.role with
    | .origin =>
      orElse s.forwardHead
        (orElse s.outstandingHead
          (orElse (s.origin.offeredFrame.map .frame)
            (orElse (s.origin.offeredMerge.map .merge) (orElse s.launchHead .probe))))
    | .member => orElse s.forwardHead (orElse s.launchHead .probe)
    | .none => orElse s.forwardHead (orElse s.launchHead .probe)
  | .halt => orElse s.launchHead .probe
  | .relay => if s.rx.lock = .locked then orElse s.forwardHead .probe else .silent

/-- A cell leaves on the transmit link. -/
def State.send (s : State) (c : CellBytes) : State := s.setTx { s.tx with out := .cell c }

/-- The bytes of a launch cell. A bulletin carries the committed epoch (R97). -/
def LaunchCell.bytes (epoch : Byte) : LaunchCell → CellBytes
  | .roster r => r.bytes
  | .commit c => c.bytes
  | .halt c => c
  | .bulletin b => bulletinCell epoch b

/-- What the owner of a launch cell does at its departure (R111): the roster timer and the commit limit start
(R138, R141), a bulletin is handed to the tap (R173). -/
def State.launchDeparts (s : State) (c : LaunchCell) : State :=
  match c with
  | .roster _ => s.setRing { s.ring with rosterTimer := s.after rosterPeriods }
  | .commit _ => s.setRing { s.ring with commitLimit := s.after commitPeriods }
  | .halt _ => s
  | .bulletin b => s.bulletinDeparts b

/-- A merge launch of line `y` at the origin: the steps of R72 and R84. The pairs start empty. -/
def State.launchMerge (s : State) (y : Nat) : State :=
  let span := s.origin.nextSpan
  let s1 := if span = 0 then s.lineBegun y else s
  let pairs := s1.mergedPairs span y (List.replicate 32 Pair.empty)
  let s2 := s1.readStores span y
  let s3 := if span = 0 then s2.lineStartCue y else s2
  let s4 := if span + 1 = s3.format.spans then s3.lineEnded y else s3
  let m : MergeCell :=
    { epoch := s4.epoch, frame := s4.origin.frameNumber.getD 0, line := y, span := span, pairs := pairs }
  (s4.setOrigin (s4.origin.launched s4.format.spans y s4.now)).send (sealCell m.bytes)

/-- A RESULT is sent (R91): the head entry is removed, and the origin's tap receives a copy. -/
def State.sendResult (s : State) (e : OutEntry) (rest : List OutEntry) : State :=
  let d := s.resultOf e
  ((s.setOrigin { s.origin with outstanding := rest }).tapResult d).send (sealCell (resultCell s.epoch d))

/-- The origin's FRAME is launched (R79): the ready FRAME becomes absent and the FRAME mark is taken. -/
def State.launchFrame (s : State) (number : Half) : State :=
  ((s.setOrigin { s.origin with readyFrame := none }).takeFrameMark number).send
    (sealCell (frameCell s.epoch number))

/-- A PROBE cell is sent and the generator moves on (R113). -/
def State.sendProbe (s : State) : State :=
  s.setTx
    { s.tx with out := .cell (probeCell s.tx.probePosition (probeRun s.tx.probePosition))
                probePosition := probeAdvance s.tx.probePosition }

/-- What a choice of the arbiter does (R111). -/
def State.depart (s : State) (d : Departure) : State :=
  match d with
  | .silent => s.setTx { s.tx with out := .silent }
  | .forward c rest => (s.setTx { s.tx with forward := rest }).send (sealCell c)
  | .result e rest => s.sendResult e rest
  | .frame n => s.launchFrame n
  | .merge y => s.launchMerge y
  | .launch c rest =>
    ((s.setTx { s.tx with launch := rest }).launchDeparts c).send (sealCell (c.bytes s.epoch))
  | .probe => s.sendProbe

/-- A departure opportunity opens a new REFCK period (log 3). -/
def State.opportunity (s : State) : State :=
  let s1 := s.setNow (s.now + 1)
  s1.depart s1.choose

def execDepartureOpportunity (s : State) : Host.Outcome State Fault Refusal := .next (s.live State.opportunity)

end Sys2Proof.Machine
end

