-- ==== Sys2Proof/Machine/PictureCommands.lean ====
section
/-! DEFINITION. Commands of the picture's cells (chapters 4, 5 and 10): FRAME, MERGE, RESULT, BULLETIN,
UNKNOWN_KIND_CELL. -/
namespace Sys2Proof.Machine

/-! ## FRAME (R64, R93) -/

/-- A FRAME cell at a member: the mark is taken and the cell goes on. -/
def State.frameAtMember (s : State) (c : CellBytes) : State := (s.takeFrameMark (cellFrame c)).forward c

def execFrame (cell : CellBytes) (s : State) : Host.Outcome State Fault Refusal :=
  .next (s.arrive fun s => s.filterPicture cell (fun s => s.frameAtMember cell) (fun s => s))

/-! ## MERGE (R65 to R69, R87) -/

/-- The line of a cell is one the station has already left behind (row 3 of R65). -/
def State.lineBehind (s : State) (y : Nat) : Bool :=
  match s.source.mergeLine with
  | none => false
  | some m => decide (y < m)

/-- Rows 1 to 3 of R65: the cell is passed on unmerged. -/
def State.outOfPlace (s : State) (m : MergeCell) : Bool :=
  s.merge.lastTaken != some m.frame || decide (s.format.height ≤ m.line) || decide (s.format.spans ≤ m.span) ||
    s.lineBehind m.line

/-- The line begins where it is not the current merge line (R67). -/
def State.beginLine (s : State) (y : Nat) : State := if s.source.mergeLine = some y then s else s.lineBegun y

/-- The candidates and reads of a cell, the cue of its line start, the end of its line (R67, R68): the pairs as they
leave, and the station. -/
def State.mergeCell (s : State) (m : MergeCell) : List Pair × State :=
  let s1 := s.beginLine m.line
  let pairs := s1.mergedPairs m.span m.line m.pairs
  let s2 := s1.readStores m.span m.line
  let s3 := if m.span = 0 then s2.lineStartCue m.line else s2
  let s4 := if m.span + 1 = s3.format.spans then s3.lineEnded m.line else s3
  (pairs, s4)

/-- A MERGE cell at a member (R65). -/
def State.mergeAtMember (s : State) (c : CellBytes) : State :=
  let m := readMerge c
  if s.outOfPlace m then
    (s.setMerge { s.merge with mismatch := satInc s.merge.mismatch }).forward c
  else
    let (pairs, s1) := s.mergeCell m
    s1.forward (withPairs c pairs)

/-- A MERGE cell that returns to the origin (R87). -/
def State.mergeAtOrigin (s : State) (c : CellBytes) : State :=
  s.setOrigin (s.origin.returned s.blendValues (readMerge c))

def execMerge (cell : CellBytes) (s : State) : Host.Outcome State Fault Refusal :=
  .next (s.arrive fun s => s.filterPicture cell (fun s => s.mergeAtMember cell) (fun s => s.mergeAtOrigin cell))

/-! ## RESULT (R71, R93) -/

/-- A RESULT cell at a member: a copy to the tap, and the cell goes on. -/
def State.resultAtMember (s : State) (c : CellBytes) : State := (s.tapResult (readResult c)).forward c

def execResult (cell : CellBytes) (s : State) : Host.Outcome State Fault Refusal :=
  .next (s.arrive fun s => s.filterPicture cell (fun s => s.resultAtMember cell) (fun s => s))

/-! ## BULLETIN (R174) -/

/-- The roster entry of a position names a sender. -/
def State.senderListed (s : State) (position : Nat) (sender : Byte) : Bool :=
  match s.ring.committed with
  | none => false
  | some c =>
    match c.roster[position]? with
    | none => false
    | some e => e.id == sender

/-- A BULLETIN cell of the committed epoch, at a member or at the origin. -/
def State.bulletinArrives (s : State) (c : CellBytes) : State :=
  if s.position = some (bulletinPosition c) then
    if s.bulletin.outstanding = some (bulletinFrame c) then
      s.setBulletin { s.bulletin with outstanding := none }
    else s
  else if s.senderListed (bulletinPosition c) (bulletinSender c) then
    ((s.recordHealth (bulletinPosition c)).emit (.bulletin (bulletinFields c))).forward c
  else s

def execBulletin (cell : CellBytes) (s : State) : Host.Outcome State Fault Refusal :=
  .next (s.arrive fun s =>
    s.filterPicture cell (fun s => s.bulletinArrives cell) (fun s => s.bulletinArrives cell))

/-! ## UNKNOWN_KIND_CELL (R103, R104) -/

/-- A good cell of unknown kind: discarded, counted stale in RUN, forwarded unchanged in RELAY. -/
def State.unknownArrives (s : State) (c : CellBytes) : State :=
  match s.ring.state with
  | .dark => s
  | .listen => s
  | .roll => s
  | .run => s.countStale
  | .halt => s
  | .relay => s.forward c

def execUnknownKindCell (cell : CellBytes) (s : State) : Host.Outcome State Fault Refusal :=
  .next (s.arrive fun s => s.unknownArrives cell)

end Sys2Proof.Machine
end

