-- ==== Sys2Proof/Machine/PortCommands.lean ====
section
/-! DEFINITION. Commands of the source port, its return path and the tap port: LAYER_SETUP, LINE, UNKNOWN_RECORD,
CUE_DEPARTS, TAP_RECORD_DEPARTS. -/
namespace Sys2Proof.Machine

/-! ## LAYER_SETUP (R24 to R26) -/

/-- The ring states in which setups are not taken (R25). -/
def RingState.refusesSetups : RingState → Bool
  | .dark => true
  | .relay => true
  | .listen => false
  | .roll => false
  | .run => false
  | .halt => false

/-- An accepted setup (R26): a setup still pending is counted SUPERSEDED. -/
def State.acceptSetup (s : State) (i : Fin 4) (u : Setup) : State :=
  (s.setLayers (s.layers.accept i u)).refuse .superseded (if (s.layers.shadow.get i).pending then 1 else 0)

def State.setupTaken (s : State) (r : List Byte) : State :=
  if s.ring.state.refusesSetups then s.refuse .notRunning 1
  else
    match readSetup r with
    | none => s.refuse .malformed 1
    | some (i, u) => s.acceptSetup i u

def execLayerSetup (words : List PortWord) (s : State) : Host.Outcome State Fault Refusal :=
  .next (s.live fun s => s.setupTaken (recordBytes words))

/-! ## LINE (R43 to R47) -/

/-- The first refusal condition of R43 that holds, for a record that is not MALFORMED. -/
def State.lineRefusal (s : State) (l : LineRecord) : Option Reason :=
  let u := (s.layers.active.get l.layer).setup
  let store := s.source.stores.get l.layer
  if u.base = 0 then some .noLayer
  else if l.pixels.length ≠ u.width then some .shape
  else if l.line < u.y0 ∨ u.y0 + u.height - 1 < l.line then some .outside
  else if s.source.mergeLine.any (fun m => decide (l.line ≤ m)) then some .late
  else if store.any (fun t => t.line == l.line) then some .duplicate
  else if store.length = 4 then some .full
  else none

/-- An accepted record is stored in a new slot, its read flag clear (R47). -/
def State.storeLine (s : State) (l : LineRecord) : State :=
  s.setSource
    { s.source with
      stores := s.source.stores.set l.layer
        (s.source.stores.get l.layer ++ [{ line := l.line, pixels := l.pixels, read := false }]) }

def State.lineTaken (s : State) (r : List Byte) : State :=
  if s.ring.state ≠ .run then s.refuse .notRunning 1
  else
    match readLine r with
    | none => s.refuse .malformed 1
    | some l =>
      match s.lineRefusal l with
      | some why => s.refuse why 1
      | none => s.storeLine l

def execLine (words : List PortWord) (s : State) : Host.Outcome State Fault Refusal :=
  .next (s.live fun s => s.lineTaken (recordBytes words))

/-! ## UNKNOWN_RECORD (R41) -/

def State.unknownTaken (s : State) : State :=
  if s.ring.state.refusesSetups then s.refuse .notRunning 1 else s.refuse .malformed 1

/-- The record's words are not read: its kind alone refuses it, whatever its length (R184). -/
def execUnknownRecord (_words : List PortWord) (s : State) : Host.Outcome State Fault Refusal :=
  .next (s.live State.unknownTaken)

/-! ## CUE_DEPARTS (R57, R184) -/

def State.cueLeaves (s : State) : State :=
  match s.source.cues with
  | [] => s
  | c :: rest => s.setSource { s.source with cues := rest, cueBegun := false, cueOut := c.edges }

def execCueDeparts (s : State) : Host.Outcome State Fault Refusal := .next (s.live State.cueLeaves)

/-! ## TAP_RECORD_DEPARTS (R163, R184) -/

def State.tapLeaves (s : State) (ready : Bool) : State :=
  match s.tap.queue, ready with
  | r :: rest, true => s.setTap { s.tap with queue := rest, out := r.edges }
  | _, _ => s

def execTapRecordDeparts (ready : Bool) (s : State) : Host.Outcome State Fault Refusal :=
  .next (s.live fun s => s.tapLeaves ready)

end Sys2Proof.Machine
end

