-- ==== Sys2Proof/Machine/ProbeCommand.lean ====
section
/-! DEFINITION. The PROBE command: the link checker (chapter 7). -/
namespace Sys2Proof.Machine

/-- The four kinds of R120, with the errors and the first byte mismatch each brings. -/
inductive ProbeKind where
  | outOfRange
  | slipped
  | mismatched
  | clean
  deriving DecidableEq, Repr

/-- A probe sorted in SYNCED (R120). -/
def sortProbe (expected start mismatches : Nat) : ProbeKind :=
  if 126 < start then .outOfRange
  else if start ≠ expected then .slipped
  else if mismatches ≠ 0 then .mismatched
  else .clean

/-- How many errors a probe counts (R121). -/
def probeErrors (k : ProbeKind) (mismatches : Nat) : Nat :=
  match k with
  | .outOfRange => 1
  | .slipped => 1 + mismatches
  | .mismatched => mismatches
  | .clean => 0

/-- HUNT (R119). -/
def Checker.hunting (c : Checker) (start : Nat) (clean : Bool) : Checker :=
  if 126 < start ∨ clean = false then { c with previous := none }
  else if c.previous.map probeAdvance = some start then
    { c with sync := .synced, previous := some start, clean := 0, bad := 0 }
  else { c with previous := some start }

/-- The counts and positions of R121, and the flag of R123. -/
def Checker.count (c : Checker) (k : ProbeKind) (expected start errors : Nat) : Checker :=
  let c1 :=
    { c with frameErrors := satAdd c.frameErrors errors, totalErrors := satAdd c.totalErrors errors
             previous := some (if k = ProbeKind.outOfRange then expected else start) }
  if k = .clean then
    { c1 with clean := min (c.clean + 1) 64, bad := 0,
              qualified := c.qualified || decide (min (c.clean + 1) 64 = 64) }
  else { c1 with clean := 0, bad := c.bad + 1 }

/-- The first-error capture (R128): filled by the first mismatching byte while it is empty. -/
def Checker.take (c : Checker) (mismatches : List (Byte × Byte × Nat)) (frame : Option Half) : Checker :=
  match c.capture, mismatches with
  | none, (e, a, p) :: _ =>
    { c with capture := some { expected := e, actual := a, position := p, frame := frame } }
  | _, _ => c

/-- The checker loses sync (R122). -/
def Checker.loseSync (c : Checker) : Checker :=
  { c with sync := .hunt, previous := none, clean := 0, bad := 0, qualified := false }

/-- The checker's state after a probe in SYNCED, before a loss of sync (R117, R120, R121, R123, R128). A probe out of
range is not compared. -/
def Checker.checked (c : Checker) (previous start : Nat) (arrived : List Byte) (frame : Option Half) : Checker :=
  let expected := probeAdvance previous
  let ms := if 126 < start then [] else byteMismatches start arrived
  let k := sortProbe expected start ms.length
  (c.count k expected start (probeErrors k ms.length)).take ms frame

/-- The fourth bad probe in a row: sync is lost and the notice handed (R122). Where the same probe brings the error sum
to the threshold, either notice may be taken first (R126): with the degraded notice first the sync lost notice is a
fault during the hold-off; with the sync lost notice first no degraded notice is handed (log 11). -/
def State.syncLost (s before : State) : State :=
  if s.degraded before then
    let (degradedFirst, s1) := s.freeChoice
    if degradedFirst then
      let s2 := s1.raiseInRun .degraded
      (s2.setChecker s2.checker.loseSync).syncLostNotice
    else (s1.setChecker s1.checker.loseSync).syncLostNotice
  else (s.setChecker s.checker.loseSync).syncLostNotice

/-- A probe in SYNCED, and what its notices bring. A probe that sets the qualified flag in LISTEN leads to ROLL
(R127, R133). -/
def State.probeSynced (s : State) (previous start : Nat) (arrived : List Byte) : State :=
  let c := s.checker.checked previous start arrived s.merge.lastTaken
  let s1 := s.setChecker c
  if c.bad = 4 then s1.syncLost s
  else if c.qualified = true ∧ s.checker.qualified = false then s1.tryRoll
  else s1.degradeTest s

/-- A PROBE cell taken whole (R100, R119, R120). -/
def State.probeArrives (s : State) (c : CellBytes) : State :=
  match s.checker.sync, s.checker.previous with
  | .synced, some p => s.probeSynced p (probeStart c) (probeBytes c)
  | _, _ =>
    s.setChecker
      (s.checker.hunting (probeStart c) ((byteMismatches (probeStart c) (probeBytes c)).isEmpty))

def execProbe (cell : CellBytes) (s : State) : Host.Outcome State Fault Refusal :=
  .next (s.arrive fun s => s.probeArrives cell)

end Sys2Proof.Machine
end

