-- ==== Sys2Proof/Machine/ReceiverCommands.lean ====
section
/-! DEFINITION. Commands of the upstream receiver (chapter 6.2): ACTIVITY_APPEARS, ALIGNING_SILENCE, LOCK_GAINED,
SILENCE_TIMER_EXPIRY, CELL_ERROR. -/
namespace Sys2Proof.Machine

/-- NO_SIGNAL to ALIGNING (R99). -/
def State.activity (s : State) : State :=
  if s.rx.lock = .noSignal then s.setRx { s.rx with lock := .aligning } else s

def execActivityAppears (s : State) : Host.Outcome State Fault Refusal := .next (s.live State.activity)

/-- ALIGNING to NO_SIGNAL (R99). -/
def State.aligningSilent (s : State) : State :=
  if s.rx.lock = .aligning then s.setRx { s.rx with lock := .noSignal } else s

def execAligningSilence (s : State) : Host.Outcome State Fault Refusal := .next (s.live State.aligningSilent)

/-- ALIGNING to LOCKED (R99). The second start mark is a valid boundary. The checker takes no action on lock gained
(R124), the transmitter reads the lock state (R115), the ring controller tests for ROLL (R133). -/
def State.gainLock (s : State) : State :=
  if s.rx.lock = .aligning then
    (s.setRx { lock := .locked, silence := s.after silencePeriods }).tryRoll
  else s

def execLockGained (s : State) : Host.Outcome State Fault Refusal := .next (s.live State.gainLock)

/-- LOCKED to ALIGNING or NO_SIGNAL, with one lock lost notice (R99, R101, R124). -/
def State.loseLock (s : State) (active : Bool) : State :=
  match s.rx.lock with
  | .noSignal => s
  | .aligning => s
  | .locked =>
    let s1 := s.reach (s.rx.silence.getD 0)
    let s2 := s1.setRx { lock := if active then .aligning else .noSignal, silence := none }
    let s3 := s2.setChecker s2.checker.lockLost
    s3.lockLostNotice

def execSilenceTimerExpiry (active : Bool) (s : State) : Host.Outcome State Fault Refusal :=
  .next (s.live fun s => s.loseLock active)

/-- One cell error is counted and the degrade test made (R100, R102, R126). -/
def State.countCellError (s : State) : State :=
  (s.setFilter { s.filter with cellErrors := satInc s.filter.cellErrors }).degradeTest s

/-- A cell whose boundary was missed restarts no silence timer; one whose CRC failed began at a valid boundary
(R99, R100). -/
def State.cellFails (s : State) (kind : CellErrorKind) : State :=
  match s.rx.lock, kind with
  | .locked, .boundaryMissed => s.countCellError
  | .locked, .crcFailed => s.validBoundary.countCellError
  | .noSignal, _ => s
  | .aligning, _ => s

def execCellError (kind : CellErrorKind) (s : State) : Host.Outcome State Fault Refusal :=
  .next (s.live fun s => s.cellFails kind)

end Sys2Proof.Machine
end

