-- ==== Sys2Proof/Machine/RingCommands.lean ====
section
/-! DEFINITION. Commands of the ring controller's cells (chapters 8 and 9): ROSTER, COMMIT, HALT_CELL. -/
namespace Sys2Proof.Machine

/-! ## ROSTER (R137, R139) -/

/-- An ID of 1 to 63. -/
def goodId (b : Byte) : Bool := decide (1 ≤ b.toNat) && decide (b.toNat ≤ 63)

/-- The form check of R137. -/
def RosterCell.goodForm (r : RosterCell) : Bool :=
  decide (1 ≤ r.count) && decide (r.count ≤ 16) && goodId r.originator && r.serial != 0 &&
    r.entries.all (fun e => goodId e.id && e.serial != 0) &&
    (match r.entries with
     | [] => false
     | e :: _ => e.id == r.originator && e.serial == r.serial && e.eligible)

/-- The cases of R139. -/
inductive RosterCase where
  | superseded | elected | stale | outranked | duplicateId | ringTooLong | append
  deriving DecidableEq, Repr

/-- The first case of R139 that holds. -/
def State.rosterCase (s : State) (r : RosterCell) : RosterCase :=
  if r.serial = s.serial ∧ r.launch ≠ s.ring.launchNumber then .superseded
  else if r.serial = s.serial then .elected
  else if r.entries.any (fun e => e.serial == s.serial) then .stale
  else if s.eligible = true ∧ s.stationId.toNat < r.originator.toNat then .outranked
  else if r.entries.any (fun e => e.id == s.stationId && e.serial != s.serial) then .duplicateId
  else if r.count = 16 then .ringTooLong
  else .append

/-- The new epoch of R141: one above the highest last epoch, 255 followed by 1. -/
def newEpoch (entries : List RollEntry) : Byte :=
  let m := entries.foldl (fun a e => max a e.lastEpoch.toNat) 0
  if m = 255 then 1 else byteOf (m + 1)

/-- The COMMIT of an elected station (R142). -/
def commitOf (cfg : ConfigCopy) (epoch : Byte) (r : RosterCell) : CommitCell :=
  { epoch := epoch, originId := cfg.stationId, format := cfg.format, modeCode := cfg.mode.code
    backdrop := cfg.backdrop, backdropCover := cfg.backdropCover, count := r.count
    entries := r.entries.map (fun e => { id := e.id, serial := e.serial }) }

/-- Election (R141). -/
def State.elect (s : State) (r : RosterCell) : State :=
  match s.ring.config with
  | none => s
  | some cfg =>
    let e := newEpoch r.entries
    let s1 := s.setRing { s.ring with elected := true, rosterTimer := none, commitEpoch := e }
    s1.dropRoster.place (.commit (commitOf cfg e r))

/-- A demoting halt (R148): demotion pending is set before the halt is raised, with the station's last epoch (R153). -/
def State.raiseDemoting (s : State) (d : Demotion) (cause : HaltCause) : State :=
  (s.setRing { s.ring with demotion := some d }).raiseHalt cause s.ring.lastEpoch

/-- The no-origin timer of a station that is not eligible is restarted, and the flag cleared, by each ROSTER of good
form (R147). -/
def State.rosterHeard (s : State) : State :=
  if s.eligible then s
  else s.setRing { s.ring with noOrigin := false, noOriginTimer := s.after noOriginPeriods }

/-- A ROSTER handed to the ring controller in ROLL (R137, R139). -/
def State.rosterInRoll (s : State) (c : CellBytes) : State :=
  let r := readRoster c
  if r.goodForm then
    let s1 := s.rosterHeard
    match s1.rosterCase r with
    | .superseded => s1
    | .elected => s1.elect r
    | .stale => s1
    | .outranked => s1
    | .duplicateId => s1.raiseDemoting .duplicateId .duplicateId
    | .ringTooLong => s1.raiseDemoting .ringTooLong .ringTooLong
    | .append => s1.forward (appendRoster c s1.ownEntry)
  else s

/-- A ROSTER cell at the cell filter (R103, R104). -/
def State.rosterArrives (s : State) (c : CellBytes) : State :=
  match s.ring.state with
  | .dark => s
  | .listen => s
  | .roll => s.rosterInRoll c
  | .run => s
  | .halt => s
  | .relay => s.forward c

def execRoster (cell : CellBytes) (s : State) : Host.Outcome State Fault Refusal :=
  .next (s.arrive fun s => s.rosterArrives cell)

/-! ## COMMIT (R142, R143) -/

/-- The form check of R142: the ranges of its table, a nonzero epoch, and entry 0 carrying the origin ID. -/
def CommitCell.goodForm (c : CommitCell) : Bool :=
  c.epoch != 0 && goodId c.originId &&
    decide (1 ≤ c.format.spans) && decide (c.format.spans ≤ 64) &&
    decide (16 ≤ c.format.height) && decide (c.format.height ≤ 1200) && decide (c.format.rate ≤ 6) &&
    decide (c.modeCode ≤ 1) && decide (c.backdropCover ≤ 16) &&
    decide (1 ≤ c.count) && decide (c.count ≤ 16) &&
    (match c.entries with
     | [] => false
     | e :: _ => e.id == c.originId)

/-- The serial of entry 0. -/
def CommitCell.originSerial (c : CommitCell) : Serial :=
  match c.entries with
  | [] => 0
  | e :: _ => e.serial

/-- The position of a serial among the entries. -/
def positionOf (serial : Serial) (entries : List RosterEntry) : Option Nat :=
  entries.findIdx? (fun e => e.serial == serial)

/-- The station enters RUN as MEMBER (R144): it forwards the COMMIT unchanged and starts the first-frame limit. -/
def State.joinAsMember (s : State) (cell : CellBytes) (c : CommitCell) (position : Nat) : State :=
  (s.forward cell).enterRun .member
    (c.committed position ((weightModeOf c.modeCode).getD .top)) (s.after (firstFramePeriods c.format))

/-- The station's own COMMIT returns (R145). -/
def State.ownCommitReturns (s : State) (c : CommitCell) : State :=
  if s.ring.elected = true ∧ c.epoch = s.ring.commitEpoch then
    let s1 := s.enterRun .origin (c.committed 0 ((weightModeOf c.modeCode).getD .top)) none
    s1.setOrigin (s1.origin.started s1.now)
  else s

/-- A COMMIT handed to the ring controller in ROLL (R142, R143). -/
def State.commitInRoll (s : State) (cell : CellBytes) : State :=
  let c := readCommit cell
  if c.goodForm then
    if c.originSerial = s.serial then s.ownCommitReturns c
    else if s.ring.elected then s
    else
      match positionOf s.serial c.entries with
      | some p => s.joinAsMember cell c p
      | none => s.raiseHalt .notListed c.epoch
  else s

/-- A COMMIT cell at the cell filter (R103, R104). -/
def State.commitArrives (s : State) (c : CellBytes) : State :=
  match s.ring.state with
  | .dark => s
  | .listen => s
  | .roll => s.commitInRoll c
  | .run => s
  | .halt => s
  | .relay => s.forward c

def execCommit (cell : CellBytes) (s : State) : Host.Outcome State Fault Refusal :=
  .next (s.arrive fun s => s.commitArrives cell)

/-! ## HALT_CELL (R154) -/

/-- The station accepts a halt whose cell has good form; the cell leaves unchanged. -/
def State.acceptHalt (s : State) (c : CellBytes) : State :=
  match readHalt c with
  | none => s
  | some h => s.enterHalt h c

/-- The cause code names DUPLICATE_ID or RING_TOO_LONG: accepted in RUN under any epoch (R104). -/
def demotingCode (c : CellBytes) : Bool :=
  byteAt c 5 == HaltCause.duplicateId.code || byteAt c 5 == HaltCause.ringTooLong.code

/-- A HALT cell at the cell filter (R103, R104). -/
def State.haltArrives (s : State) (c : CellBytes) : State :=
  match s.ring.state with
  | .dark => s
  | .listen => s
  | .roll => s.acceptHalt c
  | .run => if cellEpoch c = s.epoch ∨ demotingCode c = true then s.acceptHalt c else s
  | .halt => s
  | .relay => s.forward c

def execHaltCell (cell : CellBytes) (s : State) : Host.Outcome State Fault Refusal :=
  .next (s.arrive fun s => s.haltArrives cell)

end Sys2Proof.Machine
end

