-- ==== Sys2Proof/Machine/Startup.lean ====
section
/-! DEFINITION. Commands of reset and start-up (chapter 11): RESET, RESET_RELEASE, CONFIG_ATTEMPT_FAILS,
RETRY_WAIT_EXPIRY, CONFIG_ATTEMPT_SUCCEEDS. -/
namespace Sys2Proof.Machine

/-! ## The two-wire bus (R177) -/

/-- The device address with the write direction, and with the read direction. -/
def deviceWriteByte : Byte := 0xA0
def deviceReadByte : Byte := 0xA1

/-- Step 1 of an attempt, and the start condition of step 2. -/
def busOpening : List BusAction := [.ninePulses, .stop, .start]

/-- The transaction of an attempt that fails, up to the stop condition that ends it. -/
def busFailed : AttemptPhase → List BusAction
  | .deviceWrite => busOpening ++ [.send deviceWriteByte false, .stop]
  | .wordAddress => busOpening ++ [.send deviceWriteByte true, .send 0 false, .stop]
  | .deviceRead =>
    busOpening ++
      [.send deviceWriteByte true, .send 0 true, .repeatedStart, .send deviceReadByte false, .stop]

/-- The bytes of the data phase: each acknowledged except the last. -/
def busData : List Byte → List BusAction
  | [] => []
  | [b] => [.receive b false]
  | b :: bs => .receive b true :: busData bs

/-- The transaction of an attempt that succeeds. -/
def busSucceeded (image : List Byte) : List BusAction :=
  busOpening ++ [.send deviceWriteByte true, .send 0 true, .repeatedStart, .send deviceReadByte true] ++
    busData image ++ [.stop]

/-- One clock pulse with CFG_SDA at a level: it takes the level while CFG_SCL is low and holds it while it is high. -/
def busPulse (sda : Bool) : List BusLines := [⟨false, sda⟩, ⟨true, sda⟩, ⟨false, sda⟩]

/-- A byte, most significant bit first, and the ninth pulse, in which its receiver drives CFG_SDA low to acknowledge. -/
def busByte (b : Byte) (acked : Bool) : List BusLines :=
  (byteBits b).flatMap busPulse ++ busPulse (!acked)

/-- The levels an action puts on the lines, one after the other. A start is a fall of CFG_SDA while CFG_SCL is high, a
stop a rise of it; a repeated start first takes both lines high, CFG_SDA while CFG_SCL is low. That CFG_SDA reads high
in the nine pulses that release it, also where a cut transfer left the memory driving it (R178), is log 31. -/
def BusAction.lines : BusAction → List BusLines
  | .ninePulses => (List.replicate 9 true).flatMap busPulse
  | .start => [⟨true, true⟩, ⟨true, false⟩, ⟨false, false⟩]
  | .repeatedStart => [⟨false, true⟩, ⟨true, true⟩, ⟨true, false⟩, ⟨false, false⟩]
  | .stop => [⟨false, false⟩, ⟨true, false⟩, ⟨true, true⟩]
  | .send b acked => busByte b acked
  | .receive b acked => busByte b acked

/-- CFG_SCL and CFG_SDA over the attempt in hand or the latest one, from the idle bus. Both are shown high there, also
where a cut transfer left the memory driving CFG_SDA (R178; log 31). -/
def Loader.lines (l : Loader) : List BusLines := ⟨true, true⟩ :: l.bus.flatMap BusAction.lines

/-- An attempt is in hand: READING, and not waiting to begin the next one. -/
def Loader.inAttempt (l : Loader) : Bool := l.state == .reading && l.wait == none

/-- The loader begins an attempt (R177). -/
def Loader.begin (l : Loader) : Loader := { l with state := .reading, wait := none, bus := busOpening }

/-! ## Leaving DARK (R181) -/

/-- The station leaves DARK for RELAY: the beacon timer starts (R136, R181). -/
def State.darkToRelay (s : State) (cause : RelayCause) : State := (s.enterRelay cause).startBeacon

/-- The capacity check (R180): whether 2S + 32 is at most the cell budget. -/
def Format.passes (f : Format) : Bool := decide (2 * f.spans + 32 ≤ cellBudget f)

/-- The configuration copy an image gives, with the eligible and too-dense flags of R180. -/
def ConfigCopy.checked (c : ConfigCopy) : ConfigCopy :=
  { c with eligible := c.eligible && c.format.passes, tooDense := c.eligible && !c.format.passes }

/-- The station leaves DARK for LISTEN with its configuration copy, and tests at once for ROLL (R133, R181). -/
def State.darkToListen (s : State) (c : ConfigCopy) : State :=
  (s.setRing { s.ring with state := .listen, config := some c }).startBeacon.tryRoll

/-! ## Meanings -/

/-- RESET (R176): every block at its reset values at once. The unit serial is not changed (R182). -/
def State.resetAll (s : State) : State :=
  { State.reset with serial := s.serial, freeCount := s.freeCount, pending := s.pending }

def execReset (s : State) : Host.Outcome State Fault Refusal := .next s.resetAll

/-- RESET_RELEASE (R176): the strap is sampled once. -/
def State.releaseReset (s : State) (strap : Bool) : State :=
  if s.inReset then
    if strap then (s.setInReset false).darkToRelay .strapped
    else (s.setInReset false).setLoader s.loader.begin
  else s

def execResetRelease (strap : Bool) (s : State) : Host.Outcome State Fault Refusal := .next (s.releaseReset strap)

/-- A failed attempt (R177): a retry is counted and the 1 ms wait begins, or after three retries the loader ends
ABSENT. -/
def State.attemptFails (s : State) (phase : AttemptPhase) : State :=
  if s.loader.inAttempt then
    if s.loader.retry < 3 then
      s.setLoader
        { s.loader with retry := s.loader.retry + 1, wait := s.after retryPeriods, bus := busFailed phase }
    else (s.setLoader { s.loader with state := .absent, bus := busFailed phase }).darkToRelay .configAbsent
  else s

def execConfigAttemptFails (phase : AttemptPhase) (s : State) : Host.Outcome State Fault Refusal :=
  .next (s.live fun s => s.attemptFails phase)

/-- The wait expires and a new attempt begins (R177). -/
def State.retryExpires (s : State) : State :=
  match s.loader.state, s.loader.wait with
  | .reading, some d => (s.reach d).setLoader s.loader.begin
  | _, _ => s

def execRetryWaitExpiry (s : State) : Host.Outcome State Fault Refusal := .next (s.live State.retryExpires)

/-- A successful attempt (R179 to R181): the image is checked and the station leaves DARK. -/
def State.attemptSucceeds (s : State) (image : List Byte) : State :=
  if s.loader.inAttempt then
    match readImage image with
    | none =>
      (s.setLoader
        { s.loader with state := .invalid, buffer := image, bus := busSucceeded image }).darkToRelay .configInvalid
    | some c =>
      (s.setLoader
        { s.loader with state := .done, buffer := image, bus := busSucceeded image }).darkToListen c.checked
  else s

def execConfigAttemptSucceeds (image : List Byte) (s : State) : Host.Outcome State Fault Refusal :=
  .next (s.live fun s => s.attemptSucceeds image)

end Sys2Proof.Machine
end

