-- ==== Sys2Proof/Machine/TimerCommands.lean ====
section
/-! DEFINITION. Commands of the timers: FRAME_TIMER_EXPIRY, LINE_SLOT_TIMER_EXPIRY, LAP_LIMIT_EXPIRY,
ROSTER_TIMER_EXPIRY, COMMIT_LIMIT_EXPIRY, NO_ORIGIN_TIMER_EXPIRY, FIRST_FRAME_LIMIT_EXPIRY,
FRAME_MISSING_TIMER_EXPIRY, HOLD_OFF_TIMER_EXPIRY, BEACON_TIMER_EXPIRY. An expiry of a timer that is stopped does not
arise, and such a command has no effect (log 4). -/
namespace Sys2Proof.Machine

/-- R77, R78. -/
def State.frameTimerExpires (s : State) : State :=
  match s.origin.frameTimer with
  | none => s
  | some t => (s.reach (t.due s.format)).setOrigin (s.origin.frameExpired t)

def execFrameTimerExpiry (s : State) : Host.Outcome State Fault Refusal := .next (s.live State.frameTimerExpires)

/-- R80. -/
def State.lineSlotExpires (s : State) : State :=
  match s.origin.frameTimer, s.origin.lineSlot with
  | some t, some k =>
    (s.reach (t.slotDue s.format k)).setOrigin (s.origin.slotExpired s.format.height k)
  | _, _ => s

def execLineSlotTimerExpiry (s : State) : Host.Outcome State Fault Refusal := .next (s.live State.lineSlotExpires)

/-- R88: the oldest IN_FLIGHT entry becomes LOST by time; the third consecutive expiry raises LAP_TIMEOUT. -/
def State.lapLimitExpires (s : State) : State :=
  match loseOldest s.origin.outstanding with
  | none => s
  | some (entries, launch) =>
    let s1 := (s.reach (launch + lapLimitPeriods)).setOrigin (s.origin.lapExpired entries)
    if s1.origin.lapCount = 3 then s1.raiseInRun .lapTimeout else s1

def execLapLimitExpiry (s : State) : Host.Outcome State Fault Refusal := .next (s.live State.lapLimitExpires)

/-- R138: the station relaunches its roster. The timer runs again from the departure of the new one. -/
def State.rosterTimerExpires (s : State) : State :=
  match s.ring.rosterTimer with
  | none => s
  | some d => ((s.reach d).setRing { s.ring with rosterTimer := none }).launchRoster

def execRosterTimerExpiry (s : State) : Host.Outcome State Fault Refusal := .next (s.live State.rosterTimerExpires)

/-- R145: COMMIT_LOST, with the station's last epoch (R153), while it is still elected in ROLL. -/
def State.commitLimitExpires (s : State) : State :=
  match s.ring.commitLimit with
  | none => s
  | some d =>
    let s1 := (s.reach d).setRing { s.ring with commitLimit := none }
    if s.ring.state = .roll ∧ s.ring.elected = true then s1.raiseHalt .commitLost s.ring.lastEpoch else s1

def execCommitLimitExpiry (s : State) : Host.Outcome State Fault Refusal := .next (s.live State.commitLimitExpires)

/-- R147. -/
def State.noOriginExpires (s : State) : State :=
  match s.ring.noOriginTimer with
  | none => s
  | some d => (s.reach d).setRing { s.ring with noOriginTimer := none, noOrigin := true }

def execNoOriginTimerExpiry (s : State) : Host.Outcome State Fault Refusal := .next (s.live State.noOriginExpires)

/-- R151. -/
def State.firstFrameExpires (s : State) : State :=
  match s.ring.firstFrame with
  | none => s
  | some d => (s.reach d).raiseInRun .frameMissing

def execFirstFrameLimitExpiry (s : State) : Host.Outcome State Fault Refusal :=
  .next (s.live State.firstFrameExpires)

/-- R151. -/
def State.frameMissingExpires (s : State) : State :=
  match s.ring.frameMissing with
  | none => s
  | some d => (s.reach d).raiseInRun .frameMissing

def execFrameMissingTimerExpiry (s : State) : Host.Outcome State Fault Refusal :=
  .next (s.live State.frameMissingExpires)

/-- The relay cause of a demotion (R158). -/
def Demotion.relayCause : Demotion → RelayCause
  | .duplicateId => .duplicateId
  | .ringTooLong => .ringTooLong

/-- R156, R158, R159. -/
def State.holdOffExpires (s : State) : State :=
  match s.ring.holdOff with
  | none => s
  | some d =>
    let s1 := (s.reach d).setRing { s.ring with holdOff := none }
    match s.ring.demotion with
    | some c => s1.enterRelay c.relayCause
    | none => (s1.setRing { s1.ring with state := .listen }).flushForward.tryRoll

def execHoldOffTimerExpiry (s : State) : Host.Outcome State Fault Refusal := .next (s.live State.holdOffExpires)

/-- R170: a STATUS record every 1 ms. -/
def State.beaconExpires (s : State) : State :=
  match s.ring.beacon with
  | none => s
  | some d =>
    let s1 := (s.reach d).setRing { s.ring with beacon := some (d + beaconPeriods) }
    s1.emit (.status s1.status)

def execBeaconTimerExpiry (s : State) : Host.Outcome State Fault Refusal := .next (s.live State.beaconExpires)

end Sys2Proof.Machine
end

