-- ==== Sys2Proof/Machine/Dispatch.lean ====
section
/-! DEFINITION. One arm per command: a direct call of its meaning. -/
namespace Sys2Proof.Machine

def exec (i : Instr) (s : State) : Host.Outcome State Fault Refusal :=
  match i with
  | .reset => Sys2Proof.Machine.execReset s
  | .resetRelease strap => Sys2Proof.Machine.execResetRelease strap s
  | .configAttemptFails phase => Sys2Proof.Machine.execConfigAttemptFails phase s
  | .retryWaitExpiry => Sys2Proof.Machine.execRetryWaitExpiry s
  | .configAttemptSucceeds image => Sys2Proof.Machine.execConfigAttemptSucceeds image s
  | .activityAppears => Sys2Proof.Machine.execActivityAppears s
  | .aligningSilence => Sys2Proof.Machine.execAligningSilence s
  | .lockGained => Sys2Proof.Machine.execLockGained s
  | .silenceTimerExpiry active => Sys2Proof.Machine.execSilenceTimerExpiry active s
  | .cellError kind => Sys2Proof.Machine.execCellError kind s
  | .probe cell => Sys2Proof.Machine.execProbe cell s
  | .roster cell => Sys2Proof.Machine.execRoster cell s
  | .commit cell => Sys2Proof.Machine.execCommit cell s
  | .haltCell cell => Sys2Proof.Machine.execHaltCell cell s
  | .frame cell => Sys2Proof.Machine.execFrame cell s
  | .merge cell => Sys2Proof.Machine.execMerge cell s
  | .result cell => Sys2Proof.Machine.execResult cell s
  | .bulletin cell => Sys2Proof.Machine.execBulletin cell s
  | .unknownKindCell cell => Sys2Proof.Machine.execUnknownKindCell cell s
  | .departureOpportunity => Sys2Proof.Machine.execDepartureOpportunity s
  | .frameTimerExpiry => Sys2Proof.Machine.execFrameTimerExpiry s
  | .lineSlotTimerExpiry => Sys2Proof.Machine.execLineSlotTimerExpiry s
  | .lapLimitExpiry => Sys2Proof.Machine.execLapLimitExpiry s
  | .rosterTimerExpiry => Sys2Proof.Machine.execRosterTimerExpiry s
  | .commitLimitExpiry => Sys2Proof.Machine.execCommitLimitExpiry s
  | .noOriginTimerExpiry => Sys2Proof.Machine.execNoOriginTimerExpiry s
  | .firstFrameLimitExpiry => Sys2Proof.Machine.execFirstFrameLimitExpiry s
  | .frameMissingTimerExpiry => Sys2Proof.Machine.execFrameMissingTimerExpiry s
  | .holdOffTimerExpiry => Sys2Proof.Machine.execHoldOffTimerExpiry s
  | .beaconTimerExpiry => Sys2Proof.Machine.execBeaconTimerExpiry s
  | .layerSetup words => Sys2Proof.Machine.execLayerSetup words s
  | .line words => Sys2Proof.Machine.execLine words s
  | .unknownRecord words => Sys2Proof.Machine.execUnknownRecord words s
  | .cueDeparts => Sys2Proof.Machine.execCueDeparts s
  | .tapRecordDeparts ready => Sys2Proof.Machine.execTapRecordDeparts ready s

end Sys2Proof.Machine
end

