-- ==== Sys2Proof/Safety.lean ====
section
/-! DEFINITION. What claims call a safe station: the laws the spec states of every state of a part, and which command
sequences keep real time. -/
namespace Sys2Proof.Machine

/-! ## Laws of the state -/

/-- How many records of a tap queue are SPAN, GAP, BULLETIN or STATUS. -/
def dataRecords (q : List TapRecord) : Nat := (q.filter (fun r => !r.isControl)).length

/-- R164: the tap queue holds at most 16 records, of which at most 14 are SPAN, GAP, BULLETIN or STATUS. -/
def State.TapLaw (s : State) : Prop := s.tap.queue.length ≤ 16 ∧ dataRecords s.tap.queue ≤ 14

/-- R53 for one store: at most 4 slots, no two with one line number, none below the current merge line. -/
def StoreLaw (mergeLine : Option Nat) (store : List Slot) : Prop :=
  store.length ≤ 4 ∧ (store.map Slot.line).Nodup ∧ ∀ l ∈ store, ∀ m, mergeLine = some m → m ≤ l.line

/-- R53: the line store law, at every layer. -/
def State.LineStoreLaw (s : State) : Prop := ∀ i : Fin 4, StoreLaw s.source.mergeLine (s.source.stores.get i)

/-- The queues of bounded length: forward queue (R106), local launch queue with one cell of each kind (R108), cue queue,
whose head alone can have begun to leave (R57), line launch queue (R82) and outstanding list (R86). The ranges of the
probe generator's position (R112), the retry count (R176), the next span, which is below the committed width and 0
outside RUN, and the consecutive lap-limit count (R75): 3 of them end RUN at once (R88), so that at most 2 stand
between commands. -/
def State.QueueLaw (s : State) : Prop :=
  s.tx.forward.length ≤ 4 ∧ (s.tx.launch.map LaunchCell.kind).Nodup ∧ s.source.cues.length ≤ 8 ∧
    (s.source.cueBegun = true → s.source.cues ≠ []) ∧ s.origin.lines.length ≤ 2 ∧ s.origin.outstanding.length ≤ 64 ∧
    s.tx.probePosition ≤ 126 ∧ s.loader.retry ≤ 3 ∧ s.origin.lapCount ≤ 2 ∧
    (s.ring.committed = none → s.origin.nextSpan = 0) ∧
    ∀ k, s.ring.committed = some k → s.origin.nextSpan < k.format.spans

/-- R86: no span of a frame stands twice in the outstanding list. With it, what makes that last: lines wait in increasing
order, below the line of the next slot; the ready FRAME is the frame number's, and nothing of that frame is launched
while it waits; once it is launched, every entry of the frame lies before the next span to launch. -/
def State.SpanLaw (s : State) : Prop :=
  (s.origin.outstanding.map (fun e => (e.frame, e.line, e.span))).Nodup ∧
    (s.origin.frameNumber = none →
      s.origin.lines = [] ∧ s.origin.lineSlot = none ∧ s.origin.readyFrame = none ∧ s.origin.outstanding = []) ∧
    s.origin.lines.Pairwise (· < ·) ∧
    (∀ k, s.origin.lineSlot = some k → ∀ y ∈ s.origin.lines, y + 8 < k) ∧
    (∀ f, s.origin.readyFrame = some f →
      s.origin.frameNumber = some f ∧ ∀ e ∈ s.origin.outstanding, e.frame ≠ f) ∧
    (s.origin.readyFrame = none → ∀ n, s.origin.frameNumber = some n → ∀ e ∈ s.origin.outstanding, e.frame = n →
      (∀ y ys, s.origin.lines = y :: ys → e.line < y ∨ (e.line = y ∧ e.span < s.origin.nextSpan)) ∧
      ∀ k, s.origin.lineSlot = some k → e.line + 8 < k)

/-- R146 and R131: a committed ring is held exactly in RUN, it lists the station's own serial at the own position, the
role is NONE exactly outside RUN, and it is ORIGIN exactly at position 0. -/
def State.RosterLaw (s : State) : Prop :=
  (s.ring.state = .run ↔ s.ring.committed.isSome = true) ∧
    (∀ c, s.ring.committed = some c → (c.roster[c.position]?).map RosterEntry.serial = some s.serial) ∧
    (s.ring.role = .none ↔ s.ring.state ≠ .run) ∧ (s.ring.role = .origin ↔ s.position = some 0)

/-- R149 and R136: RING_OK is asserted exactly in RUN, ORIGIN exactly in the origin role, FAULT as the relay cause
gives, and a relay cause is held exactly in RELAY. -/
def State.PinLaw (s : State) : Prop :=
  (s.pins.ringOk = true ↔ s.ring.state = .run) ∧ (s.pins.origin = true ↔ s.ring.role = .origin) ∧
    s.pins.fault = s.ring.relayCause.fault ∧ (s.ring.relayCause = .none ↔ s.ring.state ≠ .relay)

/-- What runs or stands only in one ring state or role: the hold-off in HALT (R156), the two frame watches at a member
(R151), the frame timer, the line slot timer, its lists and the ready FRAME at the origin (R75, R94), election (R131),
the roster timer and a queued ROSTER (R138, R109), the no-origin timer and the NO_ORIGIN flag (R147) in ROLL, the beacon
timer in LISTEN, ROLL, HALT and RELAY and nowhere else (R170), reading in DARK (R181). The commit limit and a queued
COMMIT stand in ROLL; R109 lets a COMMIT that is still queued at entry to RUN leave there, which needs a station's own
COMMIT to come back before it has left. -/
def State.PhaseLaw (s : State) : Prop :=
  (s.ring.holdOff.isSome = true → s.ring.state = .halt) ∧
    (s.ring.firstFrame.isSome = true → s.ring.role = .member) ∧
    (s.ring.frameMissing.isSome = true → s.ring.role = .member) ∧
    (s.ring.role ≠ .origin →
      s.origin.frameTimer = none ∧ s.origin.lineSlot = none ∧ s.origin.readyFrame = none ∧ s.origin.lines = [] ∧
        s.origin.outstanding = []) ∧
    (s.ring.elected = true → s.ring.state = .roll) ∧
    (s.ring.rosterTimer.isSome = true ∨ (∃ c ∈ s.tx.launch, c.kind = .roster) → s.ring.state = .roll) ∧
    (s.ring.commitLimit.isSome = true ∨ (∃ c ∈ s.tx.launch, c.kind = .commit) →
      s.ring.state = .roll ∨ s.ring.state = .run) ∧
    (s.ring.noOriginTimer.isSome = true ∨ s.ring.noOrigin = true → s.ring.state = .roll) ∧
    (s.ring.beacon.isSome = true ↔ s.ring.state ≠ .dark ∧ s.ring.state ≠ .run) ∧
    (s.inReset = true → s.ring.state = .dark ∧ s.loader.state = .idle) ∧
    (s.loader.state = .reading → s.ring.state = .dark)

/-- The ring controller's law: R131, R146, R149 and the phases together. -/
def State.RingLaw (s : State) : Prop := s.RosterLaw ∧ s.PinLaw ∧ s.PhaseLaw

/-- R127: a station in ROLL or RUN has a LOCKED receiver and a SYNCED checker. A qualified link is SYNCED (R119,
R122, R124), and a SYNCED checker has a previous position of 0 to 126 (R118). Between commands the consecutive-bad
count is at most 3, since the fourth bad probe in a row sets it back to 0 at once (R122). -/
def State.LinkLaw (s : State) : Prop :=
  ((s.ring.state = .roll ∨ s.ring.state = .run) → s.rx.lock = .locked ∧ s.checker.sync = .synced) ∧
    (s.checker.qualified = true → s.checker.sync = .synced) ∧
    (s.checker.sync = .synced → s.checker.previous.isSome = true) ∧
    (∀ p, s.checker.previous = some p → p ≤ 126) ∧ s.checker.clean ≤ 64 ∧ s.checker.bad ≤ 3

/-- The ranges of one layer entry (R19). -/
def Setup.InRange (u : Setup) : Prop :=
  u.base ≤ 7 ∧ u.x0 ≤ 2047 ∧ u.y0 ≤ 1199 ∧ 1 ≤ u.width ∧ 1 ≤ u.height ∧ u.x0 + u.width ≤ 2048 ∧
    u.y0 + u.height ≤ 1200 ∧ u.cover ≤ 16 ∧ u.target ≤ 16 ∧ u.step ≤ 16

/-- R19 and R35: every entry of both tables in its ranges, and each current cover from 0 to 16. -/
def State.LayerLaw (s : State) : Prop :=
  ∀ i : Fin 4, (s.layers.shadow.get i).setup.InRange ∧ (s.layers.active.get i).setup.InRange ∧
    (s.layers.active.get i).current ≤ 16

/-- R11 for one pair: the second's priority is no greater than the top's. The second is then empty where the top is. -/
def Pair.Ordered (p : Pair) : Prop := p.second.priority ≤ p.top.priority

/-! ## Real time (log 3) -/

/-- The REFCK period at which the timer of an expiry command falls, where it runs. -/
def State.due (s : State) : Instr → Option Nat
  | .retryWaitExpiry => s.loader.wait
  | .silenceTimerExpiry _ => s.rx.silence
  | .frameTimerExpiry => s.origin.frameTimer.map (fun t => t.due s.format)
  | .lineSlotTimerExpiry =>
    match s.origin.frameTimer, s.origin.lineSlot with
    | some t, some k => some (t.slotDue s.format k)
    | _, _ => none
  | .lapLimitExpiry => (loseOldest s.origin.outstanding).map (fun r => r.2 + lapLimitPeriods)
  | .rosterTimerExpiry => s.ring.rosterTimer
  | .commitLimitExpiry => s.ring.commitLimit
  | .noOriginTimerExpiry => s.ring.noOriginTimer
  | .firstFrameLimitExpiry => s.ring.firstFrame
  | .frameMissingTimerExpiry => s.ring.frameMissing
  | .holdOffTimerExpiry => s.ring.holdOff
  | .beaconTimerExpiry => s.ring.beacon
  | .reset => none
  | .resetRelease _ => none
  | .configAttemptFails _ => none
  | .configAttemptSucceeds _ => none
  | .activityAppears => none
  | .aligningSilence => none
  | .lockGained => none
  | .cellError _ => none
  | .probe _ => none
  | .roster _ => none
  | .commit _ => none
  | .haltCell _ => none
  | .frame _ => none
  | .merge _ => none
  | .result _ => none
  | .bulletin _ => none
  | .unknownKindCell _ => none
  | .departureOpportunity => none
  | .layerSetup _ => none
  | .line _ => none
  | .unknownRecord _ => none
  | .cueDeparts => none
  | .tapRecordDeparts _ => none

/-- The expiry commands. -/
def expiryCommands : List Instr :=
  [.retryWaitExpiry, .silenceTimerExpiry true, .frameTimerExpiry, .lineSlotTimerExpiry, .lapLimitExpiry,
    .rosterTimerExpiry, .commitLimitExpiry, .noOriginTimerExpiry, .firstFrameLimitExpiry, .frameMissingTimerExpiry,
    .holdOffTimerExpiry, .beaconTimerExpiry]

/-- A command keeps real time: an expiry comes in the REFCK period in which its timer falls (or later, where the lap
limit or another event held it up), and no departure opportunity opens a period while a timer that has fallen waits. -/
def State.timely (s : State) (c : Instr) : Bool :=
  match s.due c with
  | some d => decide (d ≤ s.now)
  | none => c != .departureOpportunity || expiryCommands.all (fun e => (s.due e).all (fun d => decide (s.now < d)))

/-! ## Words of the statements: arrival, forwarding, launching -/

/-- The cell a command brings on the receive link, if it brings one. -/
def carriedCell : Instr → Option CellBytes
  | .probe c => some c
  | .roster c => some c
  | .commit c => some c
  | .haltCell c => some c
  | .frame c => some c
  | .merge c => some c
  | .result c => some c
  | .bulletin c => some c
  | .unknownKindCell c => some c
  | _ => none

/-- No reset is held and the receiver is LOCKED: the station takes cells whole (R100). -/
def State.Hears (s : State) : Prop := s.inReset = false ∧ s.rx.lock = .locked

/-- The station once the boundary of an arriving cell has restarted the silence timer, one period before the cell is
taken whole: 200 cell periods from there (R99; log 21). -/
def State.heard (s : State) : State := { s with rx := { s.rx with silence := some (s.now + 199) } }

/-- `t` is `s` once a cell was handed to the forward queue: at its tail, or counted where 4 cells are held (R106). -/
def State.Forwards (s : State) (c : CellBytes) (t : State) : Prop :=
  (s.tx.forward.length < 4 → t = { s with tx := { s.tx with forward := s.tx.forward ++ [c] } }) ∧
    (4 ≤ s.tx.forward.length → t = { s with tx := { s.tx with overflow := satInc s.tx.overflow } })

/-- `q'` is the launch queue `q` once a cell was placed in it: at the tail where no cell of its kind is queued, else in
the place of the one that is (R108). -/
def Placed (c : LaunchCell) (q q' : List LaunchCell) : Prop :=
  ((∀ d ∈ q, d.kind ≠ c.kind) → q' = q ++ [c]) ∧
    ∀ pre d post, q = pre ++ d :: post → d.kind = c.kind → (∀ e ∈ pre ++ post, e.kind ≠ c.kind) →
      q' = pre ++ c :: post

/-- `t` is `s` once the station launched a roster (R138). -/
def State.RosterLaunched (s t : State) : Prop :=
  ∃ q, t = { s with ring := { s.ring with launchNumber := s.ring.launchNumber + 1 }, tx := { s.tx with launch := q } } ∧
    Placed
      (.roster
        { originator := s.stationId, serial := s.serial, launch := s.ring.launchNumber + 1, count := 1
          entries :=
            [{ id := s.stationId, serial := s.serial, eligible := s.eligible, lastEpoch := s.ring.lastEpoch }] })
      s.tx.launch q

/-- `t` is `s` once the station entered ROLL (R134). -/
def State.EntersRoll (s t : State) : Prop :=
  (s.eligible = true →
    State.RosterLaunched { s with ring := { s.ring with state := .roll, elected := false, noOrigin := false } } t) ∧
    (s.eligible = false →
      t = { s with ring := { s.ring with state := .roll, elected := false, noOrigin := false,
                                         noOriginTimer := some (s.now + 400000) } })

/-! ## Words of the statements: configuration -/

/-- An image every field of which lies in its valid range and whose bytes sum to 0 modulo 256 (R179, Table 12-10). -/
def ValidImage (bs : List Byte) : Prop :=
  byteAt bs 0 = 0x45 ∧ byteAt bs 1 = 0x55 ∧ byteAt bs 2 = 1 ∧ 1 ≤ (byteAt bs 3).toNat ∧ (byteAt bs 3).toNat ≤ 63 ∧
    (byteAt bs 4 = 0 ∨ byteAt bs 4 = 1) ∧ 1 ≤ (byteAt bs 5).toNat ∧ (byteAt bs 5).toNat ≤ 64 ∧
    16 ≤ 256 * (byteAt bs 6).toNat + (byteAt bs 7).toNat ∧ 256 * (byteAt bs 6).toNat + (byteAt bs 7).toNat ≤ 1200 ∧
    (byteAt bs 8).toNat ≤ 6 ∧ (byteAt bs 9).toNat ≤ 1 ∧ (byteAt bs 13).toNat ≤ 16 ∧ 1 ≤ (byteAt bs 14).toNat ∧
    (byteAt bs 14).toNat ≤ 4 ∧ 1 ≤ (byteAt bs 15).toNat ∧ (∀ i, 16 ≤ i → i < 31 → byteAt bs i = 0) ∧
    (bs.map BitVec.toNat).sum % 256 = 0

/-- Frames per second of the rate codes 0 to 6 (chapter 5.2). -/
def rateOf (code : Nat) : Nat := [24, 25, 30, 50, 60, 100, 120].getD code 0

/-- 2S + 32 is at most the cell budget B (R180). -/
def DenseEnough (f : Format) : Prop := 2 * f.spans + 32 ≤ 20000000 / (rateOf f.rate * (f.height + 8))

/-- The configuration copy that a valid image gives (R179 to R181). -/
def ConfigGiven (bs : List Byte) (c : ConfigCopy) : Prop :=
  c.stationId = byteAt bs 3 ∧
    c.format = { spans := (byteAt bs 5).toNat, height := 256 * (byteAt bs 6).toNat + (byteAt bs 7).toNat,
                 rate := (byteAt bs 8).toNat } ∧
    (c.eligible = true ↔ byteAt bs 4 = 1 ∧ DenseEnough c.format) ∧
    (c.tooDense = true ↔ byteAt bs 4 = 1 ∧ ¬DenseEnough c.format) ∧
    (c.mode = .top ↔ byteAt bs 9 = 0) ∧ c.backdrop = ⟨byteAt bs 10, byteAt bs 11, byteAt bs 12⟩ ∧
    c.backdropCover = (byteAt bs 13).toNat ∧ c.lead = (byteAt bs 14).toNat ∧ c.threshold = (byteAt bs 15).toNat

/-- What an attempt of each outcome puts on the two-wire bus (R177). -/
def failedTransfer : AttemptPhase → List BusAction
  | .deviceWrite => [.ninePulses, .stop, .start, .send 0xA0 false, .stop]
  | .wordAddress => [.ninePulses, .stop, .start, .send 0xA0 true, .send 0 false, .stop]
  | .deviceRead =>
    [.ninePulses, .stop, .start, .send 0xA0 true, .send 0 true, .repeatedStart, .send 0xA1 false, .stop]

def wholeTransfer (image : List Byte) : List BusAction :=
  [.ninePulses, .stop, .start, .send 0xA0 true, .send 0 true, .repeatedStart, .send 0xA1 true] ++
    (image.take 31).map (fun b => .receive b true) ++ (image.drop 31).map (fun b => .receive b false) ++ [.stop]

/-! ## Words of the statements: probes -/

/-- The sequence bytes of a PROBE cell that differ from the stream at their positions, in order of arrival (R117). -/
def differing (cell : CellBytes) : List Nat :=
  (List.range 24).filter (fun i => byteAt cell (5 + i) != probeByte ((probeStart cell + i) % 127))

/-- The errors a probe counts in SYNCED, when `q` is the previous probe position (R120, R121). -/
def errorsOf (q : Nat) (cell : CellBytes) : Nat :=
  if 126 < probeStart cell then 1
  else if probeStart cell = (q + 24) % 127 then (differing cell).length
  else 1 + (differing cell).length

/-- The checker after a probe in SYNCED, before any loss of sync (R121, R123, R128). -/
def Checker.after (c : Checker) (q : Nat) (cell : CellBytes) (frame : Option Half) : Checker :=
  let p := probeStart cell
  let e := errorsOf q cell
  { c with
    previous := some (if 126 < p then (q + 24) % 127 else p)
    frameErrors := satAdd c.frameErrors e
    totalErrors := satAdd c.totalErrors e
    clean := if e = 0 then min (c.clean + 1) 64 else 0
    bad := if e = 0 then 0 else c.bad + 1
    qualified := c.qualified || (decide (e = 0) && decide (64 ≤ c.clean + 1))
    capture :=
      match c.capture, (differing cell).head? with
      | some k, _ => some k
      | none, none => none
      | none, some i =>
        if 126 < p then none
        else some { expected := probeByte ((p + i) % 127), actual := byteAt cell (5 + i), position := (p + i) % 127,
                    frame := frame } }

/-- The checker in HUNT with nothing held over (R122, R124). -/
def Checker.toHunt (c : Checker) : Checker :=
  { c with sync := .hunt, previous := none, clean := 0, bad := 0, qualified := false }

/-! ## Words of the statements: rosters and COMMITs -/

/-- The form of a ROSTER (R137). -/
def RosterForm (r : RosterCell) : Prop :=
  1 ≤ r.count ∧ r.count ≤ 16 ∧ 1 ≤ r.originator.toNat ∧ r.originator.toNat ≤ 63 ∧ r.serial ≠ 0 ∧
    (∀ e ∈ r.entries, 1 ≤ e.id.toNat ∧ e.id.toNat ≤ 63 ∧ e.serial ≠ 0) ∧
    ∃ e, r.entries.head? = some e ∧ e.id = r.originator ∧ e.serial = r.serial ∧ e.eligible = true

/-- The form of a COMMIT (R142). -/
def CommitForm (c : CommitCell) : Prop :=
  c.epoch ≠ 0 ∧ 1 ≤ c.originId.toNat ∧ c.originId.toNat ≤ 63 ∧ 1 ≤ c.format.spans ∧ c.format.spans ≤ 64 ∧
    16 ≤ c.format.height ∧ c.format.height ≤ 1200 ∧ c.format.rate ≤ 6 ∧ c.modeCode ≤ 1 ∧ c.backdropCover ≤ 16 ∧
    1 ≤ c.count ∧ c.count ≤ 16 ∧ ∃ e, c.entries.head? = some e ∧ e.id = c.originId

/-- The station when a ROSTER of good form has reached it in ROLL: one that is not eligible clears its NO_ORIGIN flag and
restarts its no-origin timer (R147; log 15 for a ROSTER of bad form). -/
def State.rosterSeen (s : State) : State :=
  if s.eligible then s.heard
  else { s.heard with ring := { s.ring with noOrigin := false, noOriginTimer := some (s.now + 400000) } }

/-- What a COMMIT commits a station to at a position (R144, R145). -/
def Commits (c : CommitCell) (p : Nat) (k : Committed) : Prop :=
  k.roster = c.entries ∧ k.position = p ∧ k.format = c.format ∧ (k.mode = .top ↔ c.modeCode = 0) ∧
    k.backdrop = c.backdrop ∧ k.backdropCover = c.backdropCover ∧ k.epoch = c.epoch

/-- `t` is `s` after entry to RUN in a role: what every owner does there (R144 to R146, R62, R102, R109, R125, R149,
R170, R175). -/
def State.EntersRun (s : State) (role : Role) (k : Committed) (limit : Timer) (engine : OriginEngine) (t : State) :
    Prop :=
  t = { s with
    ring := { s.ring with
      state := .run, role := role, committed := some k, lastEpoch := k.epoch, elected := false, noOrigin := false
      rosterTimer := none, commitLimit := none, noOriginTimer := none, firstFrame := limit, beacon := none }
    pins := { s.pins with ringOk := true, origin := role == .origin }
    tx := { s.tx with launch := s.tx.launch.filter (fun c => c.kind != .roster) }
    checker := { s.checker with frameErrors := 0 }
    filter := { s.filter with cellErrors := 0 }
    merge := { s.merge with lastTaken := none }
    bulletin := { s.bulletin with health := k.roster.map (fun e => { id := e.id, age := 0, silent := false }) }
    origin := engine }

/-! ## Words of the statements: FRAME_END trailers -/

/-- `tr` is the trailer of a FRAME_END that `s` builds in a role, while its tap unit stands at `u` and its last halt
record is `last` (R168, R171, R38, R90, R163). -/
structure State.TrailerShows (s : State) (u : Tap) (role : Role) (last : Option HaltRecord) (tr : Trailer) : Prop where
  frameCounts : tr.counters.cellErrors = s.filter.cellErrors ∧ tr.counters.probeErrors = s.checker.frameErrors
  sourceCounts : tr.counters.missed = s.source.missed ∧ tr.counters.refused = s.source.refused ∧
    tr.counters.lastReason = s.source.lastReason
  drops : tr.counters.tapDrops = u.drops ∧ tr.dropsFrame = u.dropsFrame ∧ tr.controlLost = u.controlLost
  layers : tr.counters.activeLayers = (List.finRange 4).countP (fun i => (s.layers.active.get i).setup.base != 0) ∧
    ∀ i, tr.counters.covers.get i = (s.layers.active.get i).current
  cumulative : tr.mismatch = s.merge.mismatch ∧ tr.stale = s.filter.stale ∧ tr.overflow = s.tx.overflow ∧
    tr.probeErrors = s.checker.totalErrors ∧ tr.bulletinsLost = s.bulletin.lost ∧
    tr.bulletinsSkipped = s.bulletin.skipped
  originCounts : (role = .origin →
      tr.counters.origin =
        some { byOrder := s.origin.lostByOrder, byTime := s.origin.lostByTime, skipped := s.origin.skipped } ∧
      tr.stray = some s.origin.stray) ∧
    (role ≠ .origin → tr.counters.origin = none ∧ tr.stray = none)
  records : tr.counters.lastHalt = last ∧ tr.counters.capture = s.checker.capture

/-! ## Words of the statements: halts -/

/-- What every owner has done at entry to HALT from `s`, with the halt recorded as `h` and `cell` to be sent (R152 steps
2 to 5 and R154; R61, R62, R94, R102, R116, R130, R149, R160, R169, R170, R172). The layer unit, the loader and the
receiver keep everything (R39, R116). Where the head cue is not known to have begun to leave, whether it stays is open
(log 8); whether an origin's FRAME_END carries its counters is open (log 10); that the FRAME_END carries the new halt
record is log 26, and that the last closed frame becomes none with no frame open is log 30. -/
structure State.HaltEntered (s : State) (h : HaltRecord) (cell : CellBytes) (t : State) : Prop where
  ring : t.ring = { s.ring with
    state := .halt, role := .none, committed := none, elected := false, noOrigin := false, rosterTimer := none
    commitLimit := none, noOriginTimer := none, firstFrame := none, frameMissing := none
    holdOff := some (s.now + 20000)
    beacon := if s.ring.state = .run then some (s.now + 20000) else s.ring.beacon
    lastHalt := some h, haltCount := satInc s.ring.haltCount }
  pins : t.pins = { s.pins with ringOk := false, origin := false }
  queues : t.tx = { s.tx with forward := [], launch := [.halt cell] }
  source : t.source = { s.source with
    stores := ⟨[], [], [], []⟩, mergeLine := none, lastMissed := ⟨none, none, none, none⟩, cues := t.source.cues
    cueBegun := t.source.cueBegun }
  cues : (s.source.cues = [] → t.source.cues = [] ∧ t.source.cueBegun = false) ∧
    ∀ c rest, s.source.cues = c :: rest →
      (t.source.cues = [c] ∧ t.source.cueBegun = true) ∨
        (s.source.cueBegun = false ∧ t.source.cues = [] ∧ t.source.cueBegun = false)
  merge : t.merge = { s.merge with lastTaken := none }
  origin : t.origin =
    { frameTimer := none, lineSlot := none, frameNumber := none, readyFrame := none, lines := [], nextSpan := 0
      outstanding := [], lapCount := 0, lostByOrder := s.origin.lostByOrder, lostByTime := s.origin.lostByTime
      skipped := s.origin.skipped, stray := s.origin.stray }
  checker : t.checker = { s.checker with clean := 0, qualified := false, frameErrors := 0 }
  filter : t.filter = { s.filter with cellErrors := 0 }
  bulletin : t.bulletin = { s.bulletin with health := [], outstanding := none }
  tapShut : s.tap.openFrame = none →
    t.tap = { s.tap.offer (.haltNotice h) with lastClosed := none, dropsFrame := 0 }
  tapOpen : ∀ o, s.tap.openFrame = some o →
    ∃ tr role, (role = s.ring.role ∨ role = .none) ∧ s.TrailerShows s.tap role (some h) tr ∧
      t.tap = { (s.tap.offer (.frameEnd o.frame true tr)).offer (.haltNotice h) with
                openFrame := none, lastClosed := none, dropsFrame := 0 }
  kept : t.layers = s.layers ∧ t.loader = s.loader ∧ t.rx = s.rx ∧ t.now = s.now ∧ t.inReset = s.inReset ∧
    t.serial = s.serial ∧ t.pending = s.pending

/-- `t` is `s` after the station raised a halt itself, with the epoch R153 gives (R152). -/
def State.HaltRaised (s : State) (cause : HaltCause) (epoch : Byte) (t : State) : Prop :=
  ∃ h : HaltRecord, h.cause = cause ∧ h.reporter = s.stationId ∧ h.epoch = epoch ∧ s.HaltEntered h (haltCellOf h) t

/-- `t` is `s` after a fault during the hold-off (R157). -/
def State.HoldOffFault (s t : State) : Prop :=
  t = { s with ring := { s.ring with holdOff := some (s.now + 20000), haltCount := satInc s.ring.haltCount } }

/-- `t` is `s` after a silent return from ROLL to LISTEN (R135). -/
def State.ReturnsToListen (s t : State) : Prop :=
  t = { s with
    ring := { s.ring with state := .listen, rosterTimer := none, commitLimit := none, noOriginTimer := none,
                          elected := false, noOrigin := false }
    tx := { s.tx with forward := [], launch := [] } }

/-! ## Words of the statements: FRAME marks -/

/-- A FRAME cell of the committed epoch reaches a member (R63, R104). -/
def State.FrameArrives (s : State) (cell : CellBytes) : Prop :=
  s.Hears ∧ s.ring.state = .run ∧ s.ring.role = .member ∧ cellEpoch cell = s.epoch

/-- At the next departure opportunity the origin launches its ready FRAME: nothing is to be forwarded, no entry is to be
sent, and the FRAME is not held (R79, R110). -/
def State.FrameLaunches (s : State) (frame : Half) : Prop :=
  s.inReset = false ∧ s.ring.state = .run ∧ s.ring.role = .origin ∧ s.tx.forward = [] ∧
    (∀ e, s.origin.outstanding.head? = some e → e.state = .inFlight) ∧ s.origin.readyFrame = some frame ∧
    ∀ e ∈ s.origin.outstanding, e.frame = frame

/-- The command `c` makes the station `s` take the FRAME mark of `frame`; `b` is the station at that moment. -/
def State.MarkEvent (s : State) (c : Instr) (frame : Half) (b : State) : Prop :=
  (∃ cell, c = .frame cell ∧ s.FrameArrives cell ∧ frame = cellFrame cell ∧ b = s.heard) ∨
    (c = .departureOpportunity ∧ s.FrameLaunches frame ∧
      b = { s with now := s.now + 1, origin := { s.origin with readyFrame := none } })

/-- The window of a setup fits a format (R29). -/
def fits (u : Setup) (f : Format) : Bool :=
  decide (u.x0 + u.width ≤ 32 * f.spans ∧ u.y0 + u.height ≤ f.height)

/-- A FRAME mark withdraws layer `i`: its entry as it stands after activation has base priority 1 to 7 and a window that
does not fit, and the entry is activated at this mark or the mark is the first since entry to RUN (R29, R30; log 29). -/
def State.withdraws (s : State) (i : Fin 4) : Bool :=
  let sh := s.layers.shadow.get i
  let a := s.layers.active.get i
  if sh.pending then sh.setup.base != 0 && !fits sh.setup s.format
  else s.merge.lastTaken.isNone && a.setup.base != 0 && !fits a.setup s.format

/-- One fade step (R34). -/
def stepped (cover target step : Nat) : Nat :=
  if cover < target then min (cover + step) target
  else if target < cover then max (cover - step) target
  else cover

/-- How many slots of the four stores satisfy `p`. -/
def countSlots (stores : Four (List Slot)) (p : Slot → Bool) : Nat :=
  stores.e0.countP p + stores.e1.countP p + stores.e2.countP p + stores.e3.countP p

/-- `n` refusals with one reason, as R56 counts them. -/
def Source.Refuses (s : Source) (why : Reason) (n : Nat) (v : Source) : Prop :=
  v.refused = satAdd s.refused n ∧ v.lastReason = if n = 0 then s.lastReason else why

/-- What the merge stage, the source port, the ring controller, the link checker and the cell filter have done when `b`
has taken the FRAME mark of `frame` (R63, R52, R58, R62, R102, R125, R151, R56). The other blocks named keep all. -/
structure State.MarkTaken (b : State) (frame : Half) (t : State) : Prop where
  merge : t.merge = { b.merge with lastTaken := some frame }
  stores : t.source.stores = ⟨[], [], [], []⟩
  lines : t.source.mergeLine = none ∧ t.source.lastMissed = ⟨none, none, none, none⟩ ∧
    t.source.missed = b.source.missed ∧ t.source.cueBegun = b.source.cueBegun ∧ t.source.cueOut = b.source.cueOut
  cues : t.source.cues =
    b.source.cues ++
      ((List.range b.lead).map (fun y => { frame := frame, line := y })).take (8 - b.source.cues.length)
  refusals : ∃ v, b.source.Refuses .unused (countSlots b.source.stores (fun l => !l.read)) v ∧
    v.Refuses .badWindow ((List.finRange 4).countP b.withdraws) t.source
  ring : t.ring =
    if b.ring.role = .member then
      { b.ring with firstFrame := none
                    frameMissing := some (b.now + (50000000 + rateOf b.format.rate - 1) / rateOf b.format.rate) }
    else b.ring
  checker : t.checker = { b.checker with frameErrors := 0 }
  filter : t.filter = { b.filter with cellErrors := 0 }
  kept : t.loader = b.loader ∧ t.rx = b.rx ∧ t.origin = b.origin ∧ t.pins = b.pins ∧ t.now = b.now ∧
    t.inReset = b.inReset ∧ t.serial = b.serial ∧ t.pending = b.pending

/-- What the layer unit has done with layer `i` at a FRAME mark: activation, window check, fade (R28 to R30, R34). -/
structure State.LayerMarked (b t : State) (i : Fin 4) : Prop where
  shadow : t.layers.shadow.get i = { b.layers.shadow.get i with pending := false }
  activated : (b.layers.shadow.get i).pending = true →
    t.layers.active.get i =
      { setup :=
          if b.withdraws i then { (b.layers.shadow.get i).setup with base := 0 }
          else (b.layers.shadow.get i).setup
        current := (b.layers.shadow.get i).setup.cover }
  kept : (b.layers.shadow.get i).pending = false →
    t.layers.active.get i =
      { setup :=
          if b.withdraws i then { (b.layers.active.get i).setup with base := 0 }
          else (b.layers.active.get i).setup
        current :=
          if (b.layers.active.get i).setup.base = 0 ∨ b.withdraws i = true then (b.layers.active.get i).current
          else
            stepped (b.layers.active.get i).current (b.layers.active.get i).setup.target
              (b.layers.active.get i).setup.step }

/-- `v` is the tap of `s` once any open frame was closed truncated: a GAP to the end of the frame where the next position
is not past it, then FRAME_END (step 1 of R165). `shows g tr` says that `tr` is the trailer built once the tap stands at
`g`, after the GAP. -/
def State.FrameCut (s : State) (shows : Tap → Trailer → Prop) (v : Tap) : Prop :=
  (s.tap.openFrame = none → v = s.tap) ∧
    ∀ o, s.tap.openFrame = some o →
      ∃ (g : Tap) (tr : Trailer),
        (s.tap.next.line * s.format.spans + s.tap.next.span < s.format.height * s.format.spans →
          g = s.tap.offer (.gap o.frame s.tap.next.line s.tap.next.span
            (s.format.height * s.format.spans - (s.tap.next.line * s.format.spans + s.tap.next.span)))) ∧
        (s.format.height * s.format.spans ≤ s.tap.next.line * s.format.spans + s.tap.next.span → g = s.tap) ∧
        shows g tr ∧ v = { g.offer (.frameEnd o.frame true tr) with openFrame := none, lastClosed := some o.frame }

/-- `v` is the tap `u` once a frame was opened (step 3 of R165, step 2 of R166). -/
def Tap.FrameOpened (u : Tap) (frame : Half) (epoch : Byte) (implicit : Bool) (v : Tap) : Prop :=
  v = { u.offer (.frameBegin frame epoch implicit) with
    openFrame := some { frame := frame, epoch := epoch, implicit := implicit }, next := { line := 0, span := 0 } }

/-- What the tap unit has done when `b` has taken a FRAME mark (R165). The trailer holds what stood before the mark
(R168; log 14). -/
def State.TapMarked (b : State) (frame : Half) (t : State) : Prop :=
  ∃ u, b.FrameCut (fun _ tr => b.TrailerShows b.tap b.ring.role b.ring.lastHalt tr) u ∧
    Tap.FrameOpened { u with dropsFrame := 0 } frame b.epoch false t.tap

/-- The bulletin that `b` builds at a FRAME mark, `t` being the station once the mark is taken (R171, R38, R56). The tap
drops are those before or after the drops of the same mark (log 9). -/
structure State.BulletinBuilt (b : State) (frame : Half) (t : State) (x : Bulletin) : Prop where
  sender : x.sender = b.stationId ∧ b.position.getD 0 = x.position ∧ x.role = b.ring.role ∧ x.frame = frame
  frameCounts : x.counters.cellErrors = b.filter.cellErrors ∧ x.counters.probeErrors = b.checker.frameErrors
  sourceCounts : x.counters.missed = b.source.missed ∧ x.counters.refused = t.source.refused ∧
    x.counters.lastReason = t.source.lastReason
  drops : x.counters.tapDrops = b.tap.drops ∨ x.counters.tapDrops = t.tap.drops
  layers : x.counters.activeLayers = (List.finRange 4).countP (fun i => (t.layers.active.get i).setup.base != 0) ∧
    ∀ i, x.counters.covers.get i = (t.layers.active.get i).current
  silent : x.silent =
    (List.range b.bulletin.health.length).filter (fun p => (b.bulletin.health[p]?).any HealthEntry.silent)
  originCounts : x.counters.origin =
    if b.ring.role = .origin then
      some { byOrder := b.origin.lostByOrder, byTime := b.origin.lostByTime, skipped := b.origin.skipped }
    else none
  records : x.counters.lastHalt = b.ring.lastHalt ∧ x.counters.capture = b.checker.capture

/-- What the bulletin unit has done when `b` has taken a FRAME mark (R172, R175). -/
def State.BulletinMarked (b : State) (frame : Half) (t : State) : Prop :=
  (∃ x, b.BulletinBuilt frame t x ∧ Placed (.bulletin x) b.tx.launch t.tx.launch) ∧
    t.bulletin =
      { health := b.bulletin.health.map (fun e =>
          { e with age := satInc e.age, silent := e.silent || decide (3 ≤ (satInc e.age).toNat) })
        outstanding := none
        lost := if b.bulletin.outstanding = none then b.bulletin.lost else satInc b.bulletin.lost
        skipped :=
          if ∃ c ∈ b.tx.launch, c.kind = .bulletin then satInc b.bulletin.skipped else b.bulletin.skipped }

/-! ## Words of the statements: merging -/

/-- The candidates the station offers at (x, y), in layer order (R5 to R9). -/
def State.offersAt (s : State) (x y : Nat) : List Candidate :=
  (List.finRange 4).filterMap (fun i => formCandidate s.stationId s.layers.active s.source.stores x y i)

/-- The pairs of a cell of line `y` and span `span` once the station's candidates are inserted (R9, R10). -/
def State.pairsMade (s : State) (span y : Nat) (ps : List Pair) : List Pair :=
  ps.mapIdx (fun i p => (s.offersAt (32 * span + i) y).foldl Pair.insert p)

/-- Layer `i` takes part at some position of a span of line `y` (R5). -/
def State.coversSpan (s : State) (span y : Nat) (i : Fin 4) : Bool :=
  (List.range 32).any (fun j => (s.layers.active.get i).takesPart (32 * span + j) y)

/-- Layer `i` takes part in a span of line `y` and its store holds no slot for the line: an underrun (R50). -/
def State.runsShort (s : State) (span y : Nat) (i : Fin 4) : Bool :=
  s.coversSpan span y i && !(s.source.stores.get i).any (fun k => k.line == y)

/-- The source port after the merge of a cell of line `y` and span `span` of a frame, where `begins` says that the cell
begins its line: line begun, reads and underruns, cue, line ended (R49 to R51, R55, R58, R67, R68). -/
structure State.MergeMoves (s : State) (begins : Bool) (frame : Half) (y span : Nat) (v : Source) : Prop where
  line : v.mergeLine = if begins then some y else s.source.mergeLine
  stores : ∀ i, v.stores.get i =
    ((s.source.stores.get i).filter (fun k =>
        !(begins && decide (k.line < y)) && !(decide (span + 1 = s.format.spans) && k.line == y))).map
      (fun k => if s.coversSpan span y i = true ∧ k.line = y then { k with read := true } else k)
  lastMissed : ∀ i, v.lastMissed.get i =
    if s.runsShort span y i then some y else s.source.lastMissed.get i
  missed : v.missed =
    satAdd s.source.missed
      ((List.finRange 4).countP (fun i => s.runsShort span y i && s.source.lastMissed.get i != some y))
  refusals : s.source.Refuses .unused
    ((if begins then countSlots s.source.stores (fun k => decide (k.line < y) && !k.read) else 0) +
      (if span + 1 = s.format.spans then
        ((List.finRange 4).map (fun i =>
          (s.source.stores.get i).countP (fun k => k.line == y && !k.read && !s.coversSpan span y i))).sum
      else 0)) v
  cue : v.cues =
    if span = 0 ∧ y + s.lead < s.format.height ∧ s.source.cues.length < 8 then
      s.source.cues ++ [{ frame := frame, line := y + s.lead }]
    else s.source.cues
  cueOut : v.cueBegun = s.source.cueBegun ∧ v.cueOut = s.source.cueOut

/-! ## Words of the statements: RESULTs at the tap -/

/-- Steps 3 and 4 of R166: what the tap of `s`, with a frame open, becomes when it is handed a RESULT of that frame. -/
def State.InFrame (s : State) (d : ResultData) (v : Tap) : Prop :=
  let r := d.line * s.format.spans + d.span
  let e := s.tap.next.line * s.format.spans + s.tap.next.span
  (r < e → v = s.tap) ∧
    (e ≤ r →
      ∃ g m : Tap,
        (r = e → g = s.tap) ∧
        (e < r → g = s.tap.offer (.gap d.frame s.tap.next.line s.tap.next.span (r - e))) ∧
        m = { g.offer (.span d) with next := { line := (r + 1) / s.format.spans, span := (r + 1) % s.format.spans } } ∧
        (r + 1 ≠ s.format.height * s.format.spans → v = m) ∧
        (r + 1 = s.format.height * s.format.spans →
          ∀ o, s.tap.openFrame = some o →
            ∃ tr, s.TrailerShows m s.ring.role s.ring.lastHalt tr ∧
              v = { m.offer (.frameEnd o.frame false tr) with openFrame := none, lastClosed := some o.frame }))

/-- What the tap of `s` becomes when it is handed a RESULT (R166). -/
def State.ResultTapped (s : State) (d : ResultData) (v : Tap) : Prop :=
  let here := (s.tap.openFrame.map OpenFrame.frame) = some d.frame
  (s.format.height ≤ d.line ∨ s.format.spans ≤ d.span → v = s.tap) ∧
    (d.line < s.format.height → d.span < s.format.spans →
      (here → s.InFrame d v) ∧
      (¬here → s.tap.lastClosed = some d.frame → v = s.tap) ∧
      (¬here → s.tap.lastClosed ≠ some d.frame →
        ∃ u w, s.FrameCut (fun g tr => s.TrailerShows g s.ring.role s.ring.lastHalt tr) u ∧
          u.FrameOpened d.frame s.epoch true w ∧
          State.InFrame { s with tap := w } d v))

/-! ## Words of the statements: departures -/

/-- At the origin, nothing of the origin engine can leave: no entry to be sent at the head of the outstanding list, no
offered FRAME, no merge launch (R79, R83, R91, R110). -/
def State.EngineSilent (s : State) : Prop :=
  (∀ e, s.origin.outstanding.head? = some e → e.state = .inFlight) ∧
    (∀ f, s.origin.readyFrame = some f → ∃ e ∈ s.origin.outstanding, e.frame ≠ f) ∧
    (s.origin.lines ≠ [] → s.origin.readyFrame = none → 64 ≤ s.origin.outstanding.length)

/-- The launch head is the first choice at the next departure opportunity (R110). -/
def State.LaunchHeadNext (s : State) : Prop :=
  s.inReset = false ∧
    (s.ring.state = .halt ∨ (s.ring.state = .roll ∧ s.tx.forward = []) ∨
      (s.ring.state = .run ∧ s.tx.forward = [] ∧ (s.ring.role = .origin → s.EngineSilent)))

/-- Probe fill is the choice at the next departure opportunity (R110). -/
def State.ProbeNext (s : State) : Prop :=
  (s.LaunchHeadNext ∧ s.tx.launch = []) ∨ (s.inReset = false ∧ s.ring.state = .listen) ∨
    (s.inReset = false ∧ s.ring.state = .relay ∧ s.rx.lock = .locked ∧ s.tx.forward = [])

/-- The RESULT that leaves for an entry under a backdrop colour (R91). -/
def ResultFor (e : OutEntry) (backdrop : Colour) (d : ResultData) : Prop :=
  d.frame = e.frame ∧ d.line = e.line ∧ d.span = e.span ∧
    (∀ cs, e.state = .resolved cs → d.lost = false ∧ d.colours = cs) ∧
    (e.state = .lost → d.lost = true ∧ d.colours = List.replicate 32 backdrop)

/-- A health table with a bulletin recorded at a position (R175). -/
def heardAt (p : Nat) (h : List HealthEntry) : List HealthEntry :=
  h.mapIdx (fun i e => if i = p then { e with age := 0, silent := false } else e)

/-! ## Words of the statements: layouts of bulletins and tap records (chapter 12) -/

/-- Two bytes, the first the more significant (R183). -/
def twoAt (bs : List Byte) (i : Nat) : Half := byteAt bs i ++ byteAt bs (i + 1)

/-- The sets of Table 12-9 whose codes count from 0, in the order of their codes. -/
def reasonSet : List Reason :=
  [.none, .notRunning, .malformed, .noLayer, .shape, .outside, .late, .duplicate, .full, .unused, .superseded, .badWindow]

def ringStateSet : List RingState := [.dark, .listen, .roll, .run, .halt, .relay]

def roleSet : List Role := [.none, .member, .origin]

def relayCauseSet : List RelayCause := [.none, .configAbsent, .configInvalid, .strapped, .duplicateId, .ringTooLong]

/-- The halt causes, whose codes count from 1. -/
def haltCauseSet : List HaltCause :=
  [.lockLost, .degraded, .lapTimeout, .frameMissing, .commitLost, .notListed, .duplicateId, .ringTooLong]

/-- The code of a member of a set whose codes count from `first`. -/
def codeFrom {α : Type} [DecidableEq α] (first : Nat) (set : List α) (x : α) : Byte :=
  BitVec.ofNat 8 (first + set.idxOf x)

/-- A flag byte: bit n is the n-th of the flags given, and the bits after them are 0 (R183). -/
def FlagsAre (b : Byte) (flags : List Bool) : Prop := ∀ n, n < 8 → b.getLsbD n = flags.getD n false

/-- Three bytes at `i` hold a last halt, or zero where there is none. -/
def HaltAt (bs : List Byte) (i : Nat) (h : Option HaltRecord) : Prop :=
  byteAt bs i = (h.map (fun k => codeFrom 1 haltCauseSet k.cause)).getD 0 ∧
    byteAt bs (i + 1) = (h.map HaltRecord.reporter).getD 0 ∧ byteAt bs (i + 2) = (h.map HaltRecord.epoch).getD 0

/-- Five bytes at `i` hold a first-error capture, or zero where there is none. -/
def CaptureAt (bs : List Byte) (i : Nat) (c : Option Capture) : Prop :=
  byteAt bs i = (c.map Capture.expected).getD 0 ∧ byteAt bs (i + 1) = (c.map Capture.actual).getD 0 ∧
    byteAt bs (i + 2) = (c.map (fun k => BitVec.ofNat 8 k.position)).getD 0 ∧
    twoAt bs (i + 3) = (c.bind Capture.frame).getD 0

/-- Six bytes at `i` hold the origin's counters, or zero where there are none. -/
def OriginAt (bs : List Byte) (i : Nat) (o : Option OriginCounters) : Prop :=
  twoAt bs i = (o.map OriginCounters.byOrder).getD 0 ∧ twoAt bs (i + 2) = (o.map OriginCounters.byTime).getD 0 ∧
    twoAt bs (i + 4) = (o.map OriginCounters.skipped).getD 0

/-- The 36 bytes of Table 12-4; byte `i` here is byte `i + 4` of the cell. -/
structure BulletinLaid (b : Bulletin) (bs : List Byte) : Prop where
  length : bs.length = 36
  sender : byteAt bs 0 = b.sender ∧ byteAt bs 1 = BitVec.ofNat 8 b.position ∧ byteAt bs 2 = codeFrom 0 roleSet b.role
  presence : FlagsAre (byteAt bs 3)
    [b.counters.origin.isSome, b.counters.lastHalt.isSome, b.counters.capture.isSome,
      (b.counters.capture.bind Capture.frame).isSome]
  frame : twoAt bs 4 = b.frame
  counts : byteAt bs 6 = b.counters.cellErrors ∧ byteAt bs 7 = b.counters.probeErrors ∧
    twoAt bs 8 = b.counters.missed ∧ twoAt bs 10 = b.counters.refused ∧
    byteAt bs 12 = codeFrom 0 reasonSet b.counters.lastReason ∧ twoAt bs 13 = b.counters.tapDrops
  layers : byteAt bs 15 = BitVec.ofNat 8 b.counters.activeLayers ∧
    ∀ i : Fin 4, byteAt bs (16 + i.val) = BitVec.ofNat 8 (b.counters.covers.get i)
  silent : ∀ n, n < 16 → (twoAt bs 20).getLsbD n = decide (n ∈ b.silent)
  origin : OriginAt bs 22 b.counters.origin
  lastHalt : HaltAt bs 28 b.counters.lastHalt
  capture : CaptureAt bs 31 b.counters.capture

/-- Bytes 5 to 48 of a FRAME_END (Table 12-7). -/
structure TrailerLaid (truncated : Bool) (tr : Trailer) (bs : List Byte) : Prop where
  flags : FlagsAre (byteAt bs 5)
    [truncated, tr.controlLost, tr.counters.origin.isSome, tr.counters.lastHalt.isSome, tr.counters.capture.isSome,
      (tr.counters.capture.bind Capture.frame).isSome]
  counts : byteAt bs 6 = tr.counters.cellErrors ∧ byteAt bs 7 = tr.counters.probeErrors ∧
    twoAt bs 8 = tr.counters.missed ∧ twoAt bs 10 = tr.counters.refused ∧
    byteAt bs 12 = codeFrom 0 reasonSet tr.counters.lastReason ∧ twoAt bs 13 = tr.counters.tapDrops ∧
    byteAt bs 15 = tr.dropsFrame
  layers : byteAt bs 16 = BitVec.ofNat 8 tr.counters.activeLayers ∧
    ∀ i : Fin 4, byteAt bs (17 + i.val) = BitVec.ofNat 8 (tr.counters.covers.get i)
  cumulative : twoAt bs 21 = tr.mismatch ∧ twoAt bs 23 = tr.stale ∧ twoAt bs 25 = tr.overflow ∧
    twoAt bs 27 = tr.probeErrors ∧ twoAt bs 29 = tr.bulletinsLost ∧ twoAt bs 31 = tr.bulletinsSkipped
  origin : OriginAt bs 33 tr.counters.origin ∧ twoAt bs 39 = tr.stray.getD 0
  lastHalt : HaltAt bs 41 tr.counters.lastHalt
  capture : CaptureAt bs 44 tr.counters.capture

/-- Bytes 3 to 14 of a STATUS (Table 12-8). -/
structure StatusLaid (x : Status) (bs : List Byte) : Prop where
  station : byteAt bs 3 = x.stationId ∧ byteAt bs 4 = codeFrom 0 ringStateSet x.state ∧
    byteAt bs 5 = codeFrom 0 roleSet x.role ∧ byteAt bs 6 = codeFrom 0 relayCauseSet x.relayCause
  link : byteAt bs 7 = codeFrom 0 [LockState.noSignal, .aligning, .locked] x.lock ∧
    byteAt bs 8 = codeFrom 0 [SyncState.hunt, .synced] x.sync
  flags : FlagsAre (byteAt bs 9)
    [x.eligible, x.tooDense, x.qualified, x.noOrigin, x.controlLost, x.lastHalt.isSome]
  halts : byteAt bs 10 = x.haltCount ∧ HaltAt bs 11 x.lastHalt
  zero : byteAt bs 14 = 0

/-- Kind code and length at the front of a tap record (Table 12-6). -/
def HeadIs (kind : Byte) (length : Nat) (bs : List Byte) : Prop :=
  byteAt bs 0 = kind ∧ twoAt bs 1 = BitVec.ofNat 16 length

/-- `bs` are the bytes of a tap record (Table 12-6). A SPAN has 32 colours and a BULLETIN 36 bytes of fields. -/
def RecordLaid (bs : List Byte) : TapRecord → Prop
  | .frameBegin f e implicit =>
    bs.length = 7 ∧ HeadIs 0x81 7 bs ∧ twoAt bs 3 = f ∧ byteAt bs 5 = e ∧ FlagsAre (byteAt bs 6) [implicit]
  | .span d =>
    bs.length = 9 + 3 * d.colours.length ∧ HeadIs 0x82 105 bs ∧ twoAt bs 3 = d.frame ∧
      twoAt bs 5 = BitVec.ofNat 16 d.line ∧ byteAt bs 7 = BitVec.ofNat 8 d.span ∧ FlagsAre (byteAt bs 8) [d.lost] ∧
      ∀ i c, d.colours[i]? = some c →
        byteAt bs (9 + 3 * i) = c.r ∧ byteAt bs (9 + 3 * i + 1) = c.g ∧ byteAt bs (9 + 3 * i + 2) = c.b
  | .gap f l s n =>
    bs.length = 11 ∧ HeadIs 0x83 11 bs ∧ twoAt bs 3 = f ∧ twoAt bs 5 = BitVec.ofNat 16 l ∧
      byteAt bs 7 = BitVec.ofNat 8 s ∧ byteAt bs 8 = BitVec.ofNat 8 (n / 65536) ∧ twoAt bs 9 = BitVec.ofNat 16 n
  | .frameEnd f truncated tr =>
    bs.length = 49 ∧ HeadIs 0x84 49 bs ∧ twoAt bs 3 = f ∧ TrailerLaid truncated tr bs
  | .bulletin fields => bs.length = 3 + fields.length ∧ HeadIs 0x85 39 bs ∧ bs.drop 3 = fields
  | .haltNotice h => bs.length = 6 ∧ HeadIs 0x86 6 bs ∧ HaltAt bs 3 (some h)
  | .status x => bs.length = 15 ∧ HeadIs 0x87 15 bs ∧ StatusLaid x bs

/-! ## Words of the statements: the two-wire bus -/

/-- The level of CFG_SDA at each rise of CFG_SCL. -/
def sampledAt : List BusLines → List Bool
  | a :: b :: rest => (if a.scl = false ∧ b.scl = true then [b.sda] else []) ++ sampledAt (b :: rest)
  | _ => []

/-- The changes of CFG_SDA while CFG_SCL is high: true for a rise. -/
def highMoves : List BusLines → List Bool
  | a :: b :: rest =>
    (if a.scl = true ∧ b.scl = true ∧ a.sda ≠ b.sda then [b.sda] else []) ++ highMoves (b :: rest)
  | _ => []

/-- The two lines never change together. -/
def oneAtATime : List BusLines → Bool
  | a :: b :: rest => (a.scl == b.scl || a.sda == b.sda) && oneAtATime (b :: rest)
  | _ => true

/-- The conditions among the actions of a transfer, in their order: a fall for a start, a rise for a stop. -/
def conditionsOf (bus : List BusAction) : List Bool :=
  bus.flatMap (fun
    | .start => [false]
    | .repeatedStart => [false]
    | .stop => [true]
    | .ninePulses => []
    | .send _ _ => []
    | .receive _ _ => [])

/-! ## Words of the statements: records of the ports -/

/-- The words on 32 lines carry these bytes: lines 31 to 24 of a word the first of its four (R184). -/
def WordsCarry (ws : List PortWord) (bs : List Byte) : Prop :=
  bs.length = 4 * ws.length ∧ ∀ k w, ws[k]? = some w →
    byteAt bs (4 * k) = w.extractLsb' 24 8 ∧ byteAt bs (4 * k + 1) = w.extractLsb' 16 8 ∧
      byteAt bs (4 * k + 2) = w.extractLsb' 8 8 ∧ byteAt bs (4 * k + 3) = w.extractLsb' 0 8

/-- The bits on one line carry these bytes, the most significant bit of byte 0 first (R184). -/
def BitsCarry (bits : List Bool) (bs : List Byte) : Prop :=
  bits.length = 8 * bs.length ∧ ∀ i j, i < bs.length → j < 8 → bits[8 * i + j]? = some ((byteAt bs i).getMsbD j)

/-- A LAYER_SETUP record that breaks no bound of R24, with the layer and fields it carries (R23, Table 12-5). -/
def SetupGiven (r : List Byte) (i : Fin 4) (u : Setup) : Prop :=
  r.length = 20 ∧ numAt r 1 = 20 ∧ (byteAt r 3).toNat = i.val ∧
    u.base = (byteAt r 4).toNat ∧ u.x0 = numAt r 5 ∧ u.y0 = numAt r 7 ∧ u.width = numAt r 9 ∧ u.height = numAt r 11 ∧
    u.cover = (byteAt r 13).toNat ∧ u.target = (byteAt r 14).toNat ∧ u.step = (byteAt r 15).toNat ∧
    (∀ m : Fin 4, markActionOf (byteAt r (16 + m.val)).toNat = some (u.marks.get m)) ∧ u.InRange

/-- A LINE record that breaks no bound of R44, with its fields (R42, Table 12-5). -/
def LineGiven (r : List Byte) (l : LineRecord) : Prop :=
  r.length = numAt r 1 ∧ numAt r 1 = 8 + 4 * numAt r 6 ∧ (byteAt r 3).toNat = l.layer.val ∧ l.line = numAt r 4 ∧
    l.line ≤ 1199 ∧ l.pixels.length = numAt r 6 ∧ 1 ≤ numAt r 6 ∧ numAt r 6 ≤ 2048 ∧
    ∀ k p, l.pixels[k]? = some p →
      p.colour = colourAt r (8 + 4 * k) ∧ p.mark.val = (byteAt r (8 + 4 * k + 3)).toNat % 4

/-- `t` is `s` after one refusal with a reason, and nothing else (R56). -/
def State.Refused (s : State) (why : Reason) (t : State) : Prop :=
  t = { s with source := { s.source with refused := satInc s.source.refused, lastReason := why } }

/-! ## Words of the statements: cells that hold what their fields have room for -/

def Pair.Fits (p : Pair) : Prop :=
  p.top.priority < 8 ∧ p.top.cover < 256 ∧ p.top.layer < 4 ∧ p.second.priority < 8 ∧ p.second.cover < 32

def MergeCell.Fits (m : MergeCell) : Prop :=
  m.line < 65536 ∧ m.span < 256 ∧ m.pairs.length = 32 ∧ ∀ p ∈ m.pairs, p.Fits

def ResultData.Fits (d : ResultData) : Prop := d.line < 65536 ∧ d.span < 256 ∧ d.colours.length = 32

def RosterCell.Fits (r : RosterCell) : Prop := r.count = r.entries.length ∧ r.count ≤ 16

def CommitCell.Fits (c : CommitCell) : Prop :=
  c.format.spans < 256 ∧ c.format.height < 65536 ∧ c.format.rate < 256 ∧ c.modeCode < 256 ∧ c.backdropCover < 256 ∧
    c.count = c.entries.length ∧ c.count ≤ 16

end Sys2Proof.Machine
end

