-- ==== Sys2Proof/Certificates/Slice0/Obligations.lean ====
section
/-! DEFINITION. The statements for the provers. Each cites the rules of spec/ it rests on; a choice of the model's own is
named with its log entry. -/

open Sys2Proof Sys2Proof.Machine

/-! ## The queue of commands -/

/-- A step takes the command at the front of the queue and runs it with the queue's rest; with an empty queue the block
idles (the model's choice, log 2). -/
def Obligations.StepRunsTheFrontCommand : Prop :=
  (∀ c rest (s : State), step { s with pending := c :: rest } = exec c { s with pending := rest }) ∧
    ∀ s, s.pending = [] → step s = .next s

/-- Every command answers a next state, also where the spec says it cannot arise (the model's choice, log 4); none changes
the unit serial (R182) or the queue of commands, which is the model's own (log 28). -/
def Obligations.EveryCommandCompletesKeepingQueueAndSerial : Prop :=
  ∀ c s, ∃ t, exec c s = .next t ∧ t.pending = s.pending ∧ t.serial = s.serial

/-! ## Reset and start-up -/

/-- RESET puts every block at its reset values (R22, R60, R62, R76, R116, R118, R131, R162, R172, R176), whatever it was
doing. A cue that is leaving is cut off and CUE_FRM is deasserted (R184); that TAP_FRM is too is log 33, and `now`,
`freeCount`, the bus actions and the queue (log 28) are the model's own. At the release of reset the strap is sampled once:
asserted, the station enters RELAY with cause STRAPPED and FAULT deasserted; deasserted, the loader enters READING and
begins its first attempt (R136, R170, R176, R177, R181; time: log 3). -/
def Obligations.ResetAndItsReleaseBeginStartUp : Prop :=
  (∀ s, exec .reset s = .next
    { now := 0, inReset := true, serial := s.serial, freeCount := s.freeCount, pending := s.pending
      loader := { state := .idle, retry := 0, buffer := List.replicate 32 0, wait := none, bus := [] }
      rx := { lock := .noSignal, silence := none }
      checker :=
        { sync := .hunt, previous := none, clean := 0, bad := 0, qualified := false, frameErrors := 0
          totalErrors := 0, capture := none }
      filter := { cellErrors := 0, stale := 0 }
      ring :=
        { state := .dark, role := .none, config := none, committed := none, lastEpoch := 0, launchNumber := 0
          elected := false, commitEpoch := 0, noOrigin := false, demotion := none, relayCause := .none
          rosterTimer := none, commitLimit := none, noOriginTimer := none, firstFrame := none, frameMissing := none
          holdOff := none, beacon := none, lastHalt := none, haltCount := 0 }
      layers :=
        { shadow := Four.all
            { setup := { base := 0, x0 := 0, y0 := 0, width := 1, height := 1, cover := 0, target := 0, step := 0
                         marks := ⟨.plain, .plain, .plain, .plain⟩ }
              pending := false }
          active := Four.all
            { setup := { base := 0, x0 := 0, y0 := 0, width := 1, height := 1, cover := 0, target := 0, step := 0
                         marks := ⟨.plain, .plain, .plain, .plain⟩ }
              current := 0 } }
      source :=
        { stores := ⟨[], [], [], []⟩, mergeLine := none, lastMissed := ⟨none, none, none, none⟩, missed := 0
          refused := 0, lastReason := .none, cues := [], cueBegun := false, cueOut := [.idle] }
      merge := { lastTaken := none, mismatch := 0 }
      origin :=
        { frameTimer := none, lineSlot := none, frameNumber := none, readyFrame := none, lines := [], nextSpan := 0
          outstanding := [], lapCount := 0, lostByOrder := 0, lostByTime := 0, skipped := 0, stray := 0 }
      tx := { forward := [], launch := [], overflow := 0, probePosition := 0, out := .silent }
      tap :=
        { queue := [], openFrame := none, lastClosed := none, next := { line := 0, span := 0 }, dropsFrame := 0
          drops := 0, controlLost := false, out := [.idle] }
      bulletin := { health := [], outstanding := none, lost := 0, skipped := 0 }
      pins := { ringOk := false, origin := false, fault := false } }) ∧
  ∀ s, s.inReset = true →
    exec (.resetRelease true) s = .next
      { s with
        inReset := false
        ring := { s.ring with state := .relay, relayCause := .strapped, beacon := some (s.now + 20000) }
        pins := { s.pins with fault := false }
        tx := { s.tx with forward := [], launch := [] } } ∧
    exec (.resetRelease false) s = .next
      { s with
        inReset := false
        loader := { s.loader with state := .reading, wait := none, bus := [.ninePulses, .stop, .start] } }

/-- The model's choice (logs 4 and 5): a command that cannot arise has no effect. While a reset is held nothing but RESET
and its release acts; a release does nothing where none is held; a timer that is stopped does not expire; an attempt that
is not in hand, because the loader is not READING or waits between two attempts, neither fails nor succeeds. -/
def Obligations.EventsThatCannotAriseChangeNothing : Prop :=
  (∀ c s, s.inReset = true → c ≠ .reset → (∀ b, c ≠ .resetRelease b) → exec c s = .next s) ∧
    (∀ b s, s.inReset = false → exec (.resetRelease b) s = .next s) ∧
    (∀ c s, c ∈ expiryCommands → (∀ a, c ≠ .silenceTimerExpiry a) → s.due c = none → exec c s = .next s) ∧
    (∀ a s, s.rx.lock ≠ .locked → exec (.silenceTimerExpiry a) s = .next s) ∧
    ∀ s, s.loader.state ≠ .reading ∨ s.loader.wait ≠ none →
      (∀ phase, exec (.configAttemptFails phase) s = .next s) ∧
        ∀ image, exec (.configAttemptSucceeds image) s = .next s

/-- A failed attempt counts a retry and waits 1 ms; the fourth failure ends the loader ABSENT and the station enters
RELAY with CONFIG_ABSENT and FAULT; the end of the wait begins a new attempt (R136, R177, R181; time: log 3). What the
attempt put on the bus is held (log 20). -/
def Obligations.TheLoaderRetriesThreeTimes : Prop :=
  (∀ phase s, s.inReset = false → s.loader.state = .reading → s.loader.wait = none → s.loader.retry < 3 →
    exec (.configAttemptFails phase) s = .next
      { s with
        loader := { s.loader with retry := s.loader.retry + 1, wait := some (s.now + 20000)
                                  bus := failedTransfer phase } }) ∧
  (∀ phase s, s.inReset = false → s.loader.state = .reading → s.loader.wait = none → s.loader.retry = 3 →
    exec (.configAttemptFails phase) s = .next
      { s with
        loader := { s.loader with state := .absent, bus := failedTransfer phase }
        ring := { s.ring with state := .relay, relayCause := .configAbsent, beacon := some (s.now + 20000) }
        pins := { s.pins with fault := true }
        tx := { s.tx with forward := [], launch := [] } }) ∧
  ∀ s d, s.inReset = false → s.loader.state = .reading → s.loader.wait = some d →
    exec .retryWaitExpiry s = .next
      { s with
        now := max s.now d
        loader := { s.loader with wait := none, bus := [.ninePulses, .stop, .start] } }

/-- A whole image that is valid gives the configuration copy, with the eligible and too-dense flags of the capacity
check, and the station enters LISTEN, or ROLL where its link is already LOCKED and qualified; one that is not valid
leads to RELAY with CONFIG_INVALID and FAULT (R133, R136, R179 to R181). -/
def Obligations.TheImageDecidesHowTheStationLeavesDark : Prop :=
  ∀ image s, image.length = 32 → s.inReset = false → s.loader.state = .reading → s.loader.wait = none →
    (ValidImage image → ∃ c b, ConfigGiven image c ∧
      b = { s with
        loader := { s.loader with state := .done, buffer := image, bus := wholeTransfer image }
        ring := { s.ring with state := .listen, config := some c, beacon := some (s.now + 20000) } } ∧
      (¬(s.rx.lock = .locked ∧ s.checker.qualified = true) → exec (.configAttemptSucceeds image) s = .next b) ∧
      (s.rx.lock = .locked → s.checker.qualified = true →
        ∃ t, exec (.configAttemptSucceeds image) s = .next t ∧ b.EntersRoll t)) ∧
    (¬ValidImage image →
      exec (.configAttemptSucceeds image) s = .next
        { s with
          loader := { s.loader with state := .invalid, buffer := image, bus := wholeTransfer image }
          ring := { s.ring with state := .relay, relayCause := .configInvalid, beacon := some (s.now + 20000) }
          pins := { s.pins with fault := true }
          tx := { s.tx with forward := [], launch := [] } })

/-- CFG_SCL and CFG_SDA over an attempt, as the bus conditions of R177 have them. A byte in either direction shows its
eight bits, most significant first, and then the acknowledge, low where it is given, at nine rises of CFG_SCL, and
CFG_SDA does not change while CFG_SCL is high; nor does it in the nine pulses of the bus release, which show it high: that
the idle bus and these pulses are high also where a cut transfer left the memory driving CFG_SDA is the model's choice,
log 31. A start and a repeated start are one fall of CFG_SDA while CFG_SCL is high, a stop one rise. Over a whole attempt no
other such change takes place, and the two lines never change together (rate and durations are left out, log 20). -/
def Obligations.BusLinesFollowTheConditions : Prop :=
  (∀ a b acked, a = .send b acked ∨ a = .receive b acked →
    sampledAt (BusAction.lines a) = (List.range 8).map b.getMsbD ++ [!acked] ∧ highMoves (BusAction.lines a) = []) ∧
  (sampledAt (BusAction.lines .ninePulses) = List.replicate 9 true ∧ highMoves (BusAction.lines .ninePulses) = []) ∧
  (highMoves (BusAction.lines .start) = [false] ∧ highMoves (BusAction.lines .repeatedStart) = [false] ∧
    highMoves (BusAction.lines .stop) = [true]) ∧
  ∀ l : Loader,
    l.bus = [.ninePulses, .stop, .start] ∨ (∃ phase, l.bus = failedTransfer phase) ∨
        (∃ image, image.length = 32 ∧ l.bus = wholeTransfer image) →
    oneAtATime l.lines = true ∧ highMoves l.lines = conditionsOf l.bus

/-! ## The receiver -/

/-- Activity takes NO_SIGNAL to ALIGNING, 10 µs without activity take ALIGNING to NO_SIGNAL, the second start mark takes
ALIGNING to LOCKED and starts the silence timer; a station in LISTEN whose checker is qualified then enters ROLL (R99,
R101, R133; time: log 3). That the second start mark is itself the boundary from which the timer's 200 periods count is log
21. That activity beyond NO_SIGNAL and the other two beyond ALIGNING change nothing is log 4. -/
def Obligations.LockStateFollowsTheLink : Prop :=
  ∀ s, s.inReset = false →
    (s.rx.lock = .noSignal → exec .activityAppears s = .next { s with rx := { s.rx with lock := .aligning } }) ∧
    (s.rx.lock ≠ .noSignal → exec .activityAppears s = .next s) ∧
    (s.rx.lock = .aligning → exec .aligningSilence s = .next { s with rx := { s.rx with lock := .noSignal } }) ∧
    (s.rx.lock ≠ .aligning → exec .aligningSilence s = .next s ∧ exec .lockGained s = .next s) ∧
    (s.rx.lock = .aligning → ¬(s.ring.state = .listen ∧ s.checker.qualified = true) →
      exec .lockGained s = .next { s with rx := { lock := .locked, silence := some (s.now + 200) } }) ∧
    (s.rx.lock = .aligning → s.ring.state = .listen → s.checker.qualified = true →
      ∃ t, exec .lockGained s = .next t ∧
        State.EntersRoll { s with rx := { lock := .locked, silence := some (s.now + 200) } } t)

/-- An expiry of the silence timer takes LOCKED to ALIGNING or NO_SIGNAL and the checker to HUNT; the lock lost notice
then acts by ring state (R99, R101, R107, R124, R135, R150, R157; time: log 3). What a halt entry leaves open or takes
from logs 8, 10, 26 and 30 stands under `HaltEntered`: the cue that has begun, the FRAME_END's counters and halt record,
and that the last closed frame becomes none with no frame open. -/
def Obligations.LossOfLockActsByRingState : Prop :=
  ∀ active s d, s.Hears → s.rx.silence = some d →
    ∃ b t, exec (.silenceTimerExpiry active) s = .next t ∧
      b = { s with
        now := max s.now d
        rx := { lock := if active then .aligning else .noSignal, silence := none }
        checker := s.checker.toHunt } ∧
      (s.ring.state = .dark ∨ s.ring.state = .listen → t = b) ∧
      (s.ring.state = .roll → b.ReturnsToListen t) ∧
      (s.ring.state = .run → b.HaltRaised .lockLost s.epoch t) ∧
      (s.ring.state = .halt → b.HoldOffFault t) ∧
      (s.ring.state = .relay → t = { b with tx := { b.tx with forward := [] } })

/-- A cell error in LOCKED adds one to the per-frame cell error count, which stops at 255, in every ring state; in RUN,
where the change brings the per-frame error sum to the degrade threshold, the station raises DEGRADED; a count that
already stands at 255 does not change, and no test is made (R99, R100, R102, R126; silence timer: log 21; outside LOCKED:
log 4; halt entry: logs 8, 10, 26, 30). -/
def Obligations.CellErrorsAreCountedAndTested : Prop :=
  ∀ kind s, s.inReset = false →
    (s.rx.lock ≠ .locked → exec (.cellError kind) s = .next s) ∧
    (s.rx.lock = .locked → ∃ b t, exec (.cellError kind) s = .next t ∧
      b = { (if kind = .crcFailed then s.heard else s) with
        filter := { s.filter with cellErrors := satInc s.filter.cellErrors } } ∧
      ((s.ring.state = .run → s.filter.cellErrors.toNat < 255 → ∀ c, s.ring.config = some c →
          s.checker.frameErrors.toNat + s.filter.cellErrors.toNat + 1 < c.threshold) → t = b) ∧
      (s.ring.state = .run → s.filter.cellErrors.toNat < 255 → ∀ c, s.ring.config = some c →
          c.threshold ≤ s.checker.frameErrors.toNat + s.filter.cellErrors.toNat + 1 →
        b.HaltRaised .degraded s.epoch t))

/-! ## The link checker -/

/-- In HUNT a probe is clean where it starts at 0 to 126 and all its bytes match. Two clean probes 24 positions apart
bring sync; another clean probe becomes the previous position; any other probe leaves none. No error is counted and no
capture taken (R119; silence timer: log 21). -/
def Obligations.HuntFollowsTheProbePositions : Prop :=
  ∀ cell s, s.Hears → s.checker.sync = .hunt →
    (probeStart cell ≤ 126 → differing cell = [] → s.checker.previous.map (fun q => (q + 24) % 127) =
        some (probeStart cell) →
      exec (.probe cell) s = .next
        { s.heard with
          checker := { s.checker with sync := .synced, previous := some (probeStart cell), clean := 0, bad := 0 } }) ∧
    (probeStart cell ≤ 126 → differing cell = [] → s.checker.previous.map (fun q => (q + 24) % 127) ≠
        some (probeStart cell) →
      exec (.probe cell) s = .next { s.heard with checker := { s.checker with previous := some (probeStart cell) } }) ∧
    (126 < probeStart cell ∨ differing cell ≠ [] →
      exec (.probe cell) s = .next { s.heard with checker := { s.checker with previous := none } })

/-- In SYNCED a probe moves the previous position, counts its errors and its run of clean or bad probes, and fills an
empty capture; where it neither is the fourth bad one, nor qualifies a link in LISTEN, nor brings the error sum of a
station in RUN to its threshold, nothing else changes. The clean probe that brings the run of clean probes to 64 sets
the qualified flag, and a station in LISTEN enters ROLL at it (R120, R121, R123, R127, R128, R133; silence timer: log
21). -/
def Obligations.SyncedProbesAreCounted : Prop :=
  (∀ cell s q k, s.Hears → s.checker.sync = .synced → s.checker.previous = some q →
    k = s.checker.after q cell s.merge.lastTaken → k.bad ≠ 4 →
    ¬(s.ring.state = .listen ∧ k.qualified = true ∧ s.checker.qualified = false) →
    (s.ring.state = .run → errorsOf q cell ≠ 0 → ∀ c, s.ring.config = some c →
      k.frameErrors.toNat + s.filter.cellErrors.toNat < c.threshold) →
    exec (.probe cell) s = .next { s.heard with checker := k }) ∧
  ∀ cell s q, s.Hears → s.ring.state = .listen → s.checker.sync = .synced → s.checker.previous = some q →
    s.checker.clean = 63 → s.checker.qualified = false → errorsOf q cell = 0 →
    ∃ t, exec (.probe cell) s = .next t ∧ t.ring.state = .roll ∧ t.checker.qualified = true ∧
      State.EntersRoll { s.heard with checker := s.checker.after q cell s.merge.lastTaken } t

/-- In RUN a probe that brings the per-frame error sum to the degrade threshold, short of losing sync, raises DEGRADED
(R126, R127). That all errors of one probe are counted before the test is made is log 13 (halt entry: logs 8, 10, 26, 30;
silence timer: log 21). -/
def Obligations.ErrorSumAtTheThresholdHalts : Prop :=
  ∀ cell s q k c, s.Hears → s.ring.state = .run → s.checker.sync = .synced → s.checker.previous = some q →
    k = s.checker.after q cell s.merge.lastTaken → k.bad ≠ 4 → k.frameErrors ≠ s.checker.frameErrors →
    s.ring.config = some c → c.threshold ≤ k.frameErrors.toNat + s.filter.cellErrors.toNat →
    ∃ t, exec (.probe cell) s = .next t ∧ State.HaltRaised { s.heard with checker := k } .degraded s.epoch t

/-- The fourth bad probe in a row loses sync, after its errors are counted, and the sync lost notice acts by ring state
(R122, R127, R135, R150, R157). In RUN it raises DEGRADED. Where the same probe brings the error sum to the threshold the
order of the two notices is open (log 11): with the sync lost notice first nothing more follows; with the degraded notice
first the sync lost notice is then a fault during the hold-off (counting: log 13; halt entry: logs 8, 10, 26, 30; silence
timer: log 21). -/
def Obligations.FourthBadProbeLosesSync : Prop :=
  ∀ cell s q k, s.Hears → s.checker.sync = .synced → s.checker.previous = some q →
    k = s.checker.after q cell s.merge.lastTaken → k.bad = 4 →
    ∃ b t, exec (.probe cell) s = .next t ∧ b = { s.heard with checker := k.toHunt } ∧
      (s.ring.state = .dark ∨ s.ring.state = .listen ∨ s.ring.state = .relay → t = b) ∧
      (s.ring.state = .roll → b.ReturnsToListen t) ∧
      (s.ring.state = .halt → b.HoldOffFault t) ∧
      (s.ring.state = .run → (∀ c, s.ring.config = some c →
          k.frameErrors.toNat + s.filter.cellErrors.toNat < c.threshold) → b.HaltRaised .degraded s.epoch t) ∧
      (s.ring.state = .run → b.HaltRaised .degraded s.epoch t ∨
        ∃ u, State.HaltRaised { s.heard with checker := k } .degraded s.epoch u ∧
          State.HoldOffFault { u with checker := u.checker.toHunt } t)

/-- The probe byte stream: a register of seven stages from all ones, stage n being bit n - 1, that puts out stage 7,
shifts up and loads stage 1 with the exclusive-or of stages 7 and 6; its period is 127 bits; the first bit of a byte is
its most significant. Byte 0 is FEh and byte 1 is 04h. Only RESET and a departure move the generator's position
(R112). -/
def Obligations.ProbeStreamComesFromTheRegister : Prop :=
  (∃ reg : Nat → BitVec 7, reg 0 = 0x7F ∧
    (∀ n i, i < 6 → (reg (n + 1)).getLsbD (i + 1) = (reg n).getLsbD i) ∧
    (∀ n, (reg (n + 1)).getLsbD 0 = ((reg n).getLsbD 6 ^^ (reg n).getLsbD 5)) ∧
    (∀ n, reg (n + 127) = reg n) ∧
    ∀ p j, p < 127 → j < 8 → (probeByte p).getMsbD j = (reg (8 * p + j)).getLsbD 6) ∧
  probeByte 0 = 0xFE ∧ probeByte 1 = 0x04 ∧
  (∀ s t, exec .reset s = .next t → t.tx.probePosition = 0) ∧
  ∀ c s t, c ≠ .reset → c ≠ .departureOpportunity → exec c s = .next t → t.tx.probePosition = s.tx.probePosition

/-! ## The cell filter -/

/-- Cells are taken only in LOCKED (R100). Outside RUN the cell filter discards every good cell in DARK, LISTEN and HALT,
forwards every one in RELAY, and in ROLL discards FRAME, MERGE, RESULT, BULLETIN and unknown kinds (R103; silence timer:
log 21). -/
def Obligations.CellFilterOutsideRun : Prop :=
  ∀ c cell s, carriedCell c = some cell → s.inReset = false →
    (s.rx.lock ≠ .locked → exec c s = .next s) ∧
    (c ≠ .probe cell → s.rx.lock = .locked →
      (s.ring.state = .dark ∨ s.ring.state = .listen ∨ s.ring.state = .halt → exec c s = .next s.heard) ∧
      (s.ring.state = .relay → ∃ t, exec c s = .next t ∧ s.heard.Forwards cell t) ∧
      (s.ring.state = .roll → c ≠ .roster cell → c ≠ .commit cell → c ≠ .haltCell cell →
        exec c s = .next s.heard))

/-- In RUN the cell filter discards ROSTER and COMMIT cells and HALT cells of another epoch that carry no demoting cause;
it discards and counts as stale every picture cell or bulletin of another epoch and every unknown kind; and the origin
retires its returning FRAME and RESULT cells (R93, R104, R105; silence timer: log 21). -/
def Obligations.CellFilterInRun : Prop :=
  ∀ cell s, s.Hears → s.ring.state = .run →
    exec (.roster cell) s = .next s.heard ∧ exec (.commit cell) s = .next s.heard ∧
    (cellEpoch cell ≠ s.epoch → byteAt cell 5 ≠ 7 → byteAt cell 5 ≠ 8 →
      exec (.haltCell cell) s = .next s.heard) ∧
    (∀ c, c = .unknownKindCell cell ∨
        (cellEpoch cell ≠ s.epoch ∧ (c = .frame cell ∨ c = .merge cell ∨ c = .result cell ∨ c = .bulletin cell)) →
      exec c s = .next { s.heard with filter := { s.filter with stale := satInc s.filter.stale } }) ∧
    (cellEpoch cell = s.epoch → s.ring.role = .origin →
      exec (.frame cell) s = .next s.heard ∧ exec (.result cell) s = .next s.heard)

/-! ## Rosters, COMMITs and HALT cells -/

/-- In ROLL a ROSTER of bad form, one of the station's own that is superseded, one that already lists the station
elsewhere, and one whose originator could not win against an eligible station are discarded (R137, R139 cases 1, 3 and
4, R147; bad form: log 15; silence timer: log 21). -/
def Obligations.RostersThatEndAtTheStation : Prop :=
  ∀ cell s r, s.Hears → s.ring.state = .roll → r = readRoster cell →
    (¬RosterForm r → exec (.roster cell) s = .next s.heard) ∧
    (RosterForm r →
      (r.serial = s.serial ∧ r.launch ≠ s.ring.launchNumber) ∨
        (r.serial ≠ s.serial ∧ ∃ e ∈ r.entries, e.serial = s.serial) ∨
        ((∀ e ∈ r.entries, e.serial ≠ s.serial) ∧ s.eligible = true ∧ s.stationId.toNat < r.originator.toNat) →
      exec (.roster cell) s = .next s.rosterSeen)

/-- In ROLL a ROSTER that none of the cases before stops gains the station's own entry at its tail and one in its entry
count, and goes to the forward queue (R139 case 7). Byte by byte: start mark, kind and epoch 0; originator, serial and
launch number as they arrived; the count; each entry as it arrived, its flag byte with bit 0 alone; the own entry; and 00h
in every byte after it, since unnamed bits and unused bytes are sent as 0 whatever arrived there (R97, R183; silence
timer: log 21). -/
def Obligations.RosterGainsTheStationsEntry : Prop :=
  ∀ cell s r, cell.length = 336 → s.Hears → s.ring.state = .roll → r = readRoster cell → RosterForm r →
    (∀ e ∈ r.entries, e.serial ≠ s.serial ∧ e.id ≠ s.stationId) →
    ¬(s.eligible = true ∧ s.stationId.toNat < r.originator.toNat) → r.count < 16 →
    ∃ cell' t, exec (.roster cell) s = .next t ∧ s.rosterSeen.Forwards cell' t ∧ cell'.length = 336 ∧
      cell'.take 4 = [0xA7, 0x3C, 0x02, 0x00] ∧
      (∀ i, 4 ≤ i → i < 10 → byteAt cell' i = byteAt cell i) ∧ byteAt cell' 10 = byteAt cell 10 + 1 ∧
      (∀ n j, n < r.count → j < 7 →
        byteAt cell' (11 + 7 * n + j) =
          if j = 5 then byteAt cell (11 + 7 * n + j) &&& 1 else byteAt cell (11 + 7 * n + j)) ∧
      (cell'.drop (11 + 7 * r.count)).take 7 =
        [s.stationId, s.serial.extractLsb' 24 8, s.serial.extractLsb' 16 8, s.serial.extractLsb' 8 8,
          s.serial.extractLsb' 0 8, if s.eligible then 1 else 0, s.ring.lastEpoch] ∧
      (∀ i, 18 + 7 * r.count ≤ i → byteAt cell' i = 0) ∧
      readRoster cell' =
        { r with
          count := r.count + 1
          entries := r.entries ++
            [{ id := s.stationId, serial := s.serial, eligible := s.eligible, lastEpoch := s.ring.lastEpoch }] }

/-- A station whose own latest roster returns in ROLL is elected: the roster timer stops, any queued ROSTER of its own is
removed, the new epoch is one above the highest last epoch of the entries, with 255 followed by 1, and a COMMIT with its
own configuration and the roster's entries is placed in the local launch queue (R109, R139 case 2, R141, R142; silence
timer: log 21). -/
def Obligations.OwnRosterElectsTheStation : Prop :=
  ∀ cell s r g, s.Hears → s.ring.state = .roll → s.ring.config = some g → r = readRoster cell → RosterForm r →
    r.serial = s.serial → r.launch = s.ring.launchNumber →
    ∃ t e m q, exec (.roster cell) s = .next t ∧
      (∀ x ∈ r.entries, x.lastEpoch.toNat ≤ m) ∧ (∃ x ∈ r.entries, x.lastEpoch.toNat = m) ∧
      e.toNat = (if m = 255 then 1 else m + 1) ∧
      Placed
        (.commit
          { epoch := e, originId := g.stationId, format := g.format, modeCode := if g.mode = .top then 0 else 1
            backdrop := g.backdrop, backdropCover := g.backdropCover, count := r.count
            entries := r.entries.map (fun x => { id := x.id, serial := x.serial }) })
        (s.tx.launch.filter (fun c => c.kind != .roster)) q ∧
      t = { s.rosterSeen with
        ring := { s.rosterSeen.ring with elected := true, rosterTimer := none, commitEpoch := e }
        tx := { s.tx with launch := q } }

/-- In ROLL a ROSTER that holds the station's own ID with another serial raises DUPLICATE_ID, and one that has no room
raises RING_TOO_LONG; demotion pending is set to the cause (R139 cases 5 and 6, R148, R152, R153; halt entry: logs 8, 10, 26,
30; silence timer: log 21). -/
def Obligations.RostersThatDemoteTheStation : Prop :=
  ∀ cell s r, s.Hears → s.ring.state = .roll → r = readRoster cell → RosterForm r →
    (∀ e ∈ r.entries, e.serial ≠ s.serial) → ¬(s.eligible = true ∧ s.stationId.toNat < r.originator.toNat) →
    ((∃ e ∈ r.entries, e.id = s.stationId) →
      ∃ t, exec (.roster cell) s = .next t ∧
        State.HaltRaised { s.rosterSeen with ring := { s.rosterSeen.ring with demotion := some .duplicateId } }
          .duplicateId s.ring.lastEpoch t) ∧
    ((∀ e ∈ r.entries, e.id ≠ s.stationId) → r.count = 16 →
      ∃ t, exec (.roster cell) s = .next t ∧
        State.HaltRaised { s.rosterSeen with ring := { s.rosterSeen.ring with demotion := some .ringTooLong } }
          .ringTooLong s.ring.lastEpoch t)

/-- In ROLL a COMMIT of bad form, an old one of the station's own, and another's while the station is elected are
discarded; one that does not list a station that is not elected raises NOT_LISTED with the COMMIT's epoch (R142, R143
cases 2 and 4, R145, R153). That the form check leaves the IDs and serials of the other entries unchecked is log 24 (halt
entry: logs 8, 10, 26, 30; silence timer: log 21). -/
def Obligations.CommitsThatEndAtTheStation : Prop :=
  ∀ cell s c, s.Hears → s.ring.state = .roll → c = readCommit cell →
    (¬CommitForm c → exec (.commit cell) s = .next s.heard) ∧
    (CommitForm c → ∀ e, c.entries.head? = some e →
      (e.serial = s.serial → ¬(s.ring.elected = true ∧ c.epoch = s.ring.commitEpoch) →
        exec (.commit cell) s = .next s.heard) ∧
      (e.serial ≠ s.serial → s.ring.elected = true → exec (.commit cell) s = .next s.heard) ∧
      (s.ring.elected = false → (∀ x ∈ c.entries, x.serial ≠ s.serial) →
        ∃ t, exec (.commit cell) s = .next t ∧ s.heard.HaltRaised .notListed c.epoch t))

/-- In ROLL a COMMIT of another station that lists this one, not elected, makes it a MEMBER at its place in the entries:
the COMMIT goes on unchanged, the committed ring is the COMMIT's, RING_OK is asserted and the first-frame limit starts
(R143 case 3, R144, R151; form check: log 24; silence timer: log 21). -/
def Obligations.CommitThatListsTheStationMakesAMember : Prop :=
  ∀ cell s c p, s.Hears → s.ring.state = .roll → c = readCommit cell → CommitForm c → s.ring.elected = false →
    (c.entries[p]?).map RosterEntry.serial = some s.serial →
    (∀ i < p, (c.entries[i]?).map RosterEntry.serial ≠ some s.serial) → p ≠ 0 →
    ∃ k u t, exec (.commit cell) s = .next t ∧ Commits c p k ∧ s.heard.Forwards cell u ∧
      u.EntersRun .member k
        (some (s.now + (40000 + (40000000 + rateOf c.format.rate - 1) / rateOf c.format.rate))) s.origin t

/-- The return of its own COMMIT with the launched epoch makes an elected station the ORIGIN at position 0: RING_OK and
ORIGIN are asserted, the origin engine takes its starting values with its four counters kept, its frame timer starts,
and the COMMIT is not forwarded (R76, R77, R145; form check: log 24; silence timer: log 21). -/
def Obligations.OwnCommitMakesTheOrigin : Prop :=
  ∀ cell s c e, s.Hears → s.ring.state = .roll → c = readCommit cell → CommitForm c → c.entries.head? = some e →
    e.serial = s.serial → s.ring.elected = true → c.epoch = s.ring.commitEpoch →
    ∃ k t, exec (.commit cell) s = .next t ∧ Commits c 0 k ∧
      s.heard.EntersRun .origin k none
        { frameTimer := some { start := s.now, next := 1 }, lineSlot := none, frameNumber := none, readyFrame := none
          lines := [], nextSpan := 0, outstanding := [], lapCount := 0, lostByOrder := s.origin.lostByOrder
          lostByTime := s.origin.lostByTime, skipped := s.origin.skipped, stray := s.origin.stray } t

/-- A HALT cell of good form is accepted in ROLL under any epoch, and in RUN under the committed epoch or with a demoting
cause: the halt is recorded with the cell's cause, reporter and epoch, every owner acts, and the same cell is queued. One
of bad form is discarded (R104, R116, R152, R154, R160; halt entry: logs 8, 10, 26, 30; silence timer: log 21). -/
def Obligations.HaltCellsAreAccepted : Prop :=
  ∀ cell s, s.Hears →
    s.ring.state = .roll ∨
      (s.ring.state = .run ∧ (cellEpoch cell = s.epoch ∨ byteAt cell 5 = 7 ∨ byteAt cell 5 = 8)) →
    ((1 ≤ (byteAt cell 5).toNat ∧ (byteAt cell 5).toNat ≤ 8 ∧ 1 ≤ (byteAt cell 4).toNat ∧
        (byteAt cell 4).toNat ≤ 63) →
      ∃ h t, exec (.haltCell cell) s = .next t ∧ s.heard.HaltEntered h cell t ∧ h.cause.code = byteAt cell 5 ∧
        h.reporter = byteAt cell 4 ∧ h.epoch = cellEpoch cell) ∧
    (¬(1 ≤ (byteAt cell 5).toNat ∧ (byteAt cell 5).toNat ≤ 8 ∧ 1 ≤ (byteAt cell 4).toNat ∧
        (byteAt cell 4).toNat ≤ 63) →
      exec (.haltCell cell) s = .next s.heard)

/-! ## FRAME marks -/

/-- A FRAME of the committed epoch at a member, and the launch of its own FRAME at the origin, take the FRAME mark: the
last taken frame is set, the stores are emptied, the unread slots and bad windows counted, the first cues issued, the
per-frame counts cleared and a member's frame watch restarted. A member hands the FRAME cell on unchanged; the origin's
leaves with the committed epoch and the frame number, and is no longer ready. No PROBE leaves, and the probe generator's
position stays (R29, R30, R52, R56, R58, R62 to R64, R79, R98, R102, R106, R113, R125, R151; which mark checks the windows
of entries that stood: log 29; time: log 3; silence timer: log 21). -/
def Obligations.FrameMarkIsTaken : Prop :=
  (∀ s cell, s.FrameArrives cell → ∃ t, exec (.frame cell) s = .next t ∧ s.heard.MarkTaken (cellFrame cell) t ∧
    t.tx.out = s.tx.out ∧ t.tx.probePosition = s.tx.probePosition ∧
    (s.tx.forward.length < 4 → t.tx.forward = s.tx.forward ++ [cell] ∧ t.tx.overflow = s.tx.overflow) ∧
    (4 ≤ s.tx.forward.length → t.tx.forward = s.tx.forward ∧ t.tx.overflow = satInc s.tx.overflow)) ∧
  ∀ s frame, s.FrameLaunches frame → ∃ t, exec .departureOpportunity s = .next t ∧
    State.MarkTaken { s with now := s.now + 1, origin := { s.origin with readyFrame := none } } frame t ∧
    t.tx.forward = [] ∧ t.tx.overflow = s.tx.overflow ∧ t.tx.probePosition = s.tx.probePosition ∧
    t.tx.out = .cell (sealCell ([0xA7, 0x3C, 0x04, s.epoch, frame.extractLsb' 8 8, frame.extractLsb' 0 8] ++
      List.replicate 330 0))

/-- At a FRAME mark the layer unit activates every pending setup, withdraws entries whose windows do not fit, and steps
the fade of every other active layer (R28 to R30, R34). Which mark checks the windows of entries that stood is log 29
(time: log 3; silence timer: log 21). -/
def Obligations.FrameMarkMovesTheLayers : Prop :=
  ∀ s c frame b, s.MarkEvent c frame b → ∃ t, exec c s = .next t ∧ ∀ i, b.LayerMarked t i

/-- At a FRAME mark the tap unit closes any open frame truncated, clears tap drops this frame and opens the new frame
(R165, R168): the trailer holds every field of R168 as it stood before the mark (log 14; time: log 3; silence timer: log
21). -/
def Obligations.FrameMarkMovesTheTap : Prop :=
  ∀ s c frame b, s.MarkEvent c frame b → ∃ t, exec c s = .next t ∧ b.TapMarked frame t

/-- At a FRAME mark the bulletin unit counts an outstanding bulletin as lost, builds and queues its own bulletin, counting
a replaced one as skipped, and ages the health table (R108, R171, R172, R175; tap drops: log 9; time: log 3; silence
timer: log 21). -/
def Obligations.FrameMarkBuildsTheBulletin : Prop :=
  ∀ s c frame b, s.MarkEvent c frame b → ∃ t, exec c s = .next t ∧ b.BulletinMarked frame t

/-! ## The picture's cells -/

/-- A layer forms no candidate at a position where its base priority is 0, its window does not cover the position, or its
store holds no slot for the line (R5, R6). Elsewhere the pixel at index x - x0 of the slot gives colour and mark, and the
mark's action the candidate: PLAIN the base priority, LIFT one more but not more than 7, both with the layer's current
cover and not solid; SOLID the base priority, solid, with cover 16; HOLE none (R4, R7, R8). -/
def Obligations.CandidatesFormByMarkActionAndWindow : Prop :=
  ∀ (station : Byte) (active : Four ActiveEntry) (stores : Four (List Slot)) (x y : Nat) (i : Fin 4)
    (a : ActiveEntry) (offer : Option Candidate),
    a = active.get i → offer = formCandidate station active stores x y i →
    (a.setup.base = 0 ∨ x < a.setup.x0 ∨ a.setup.x0 + a.setup.width ≤ x ∨ y < a.setup.y0 ∨
        a.setup.y0 + a.setup.height ≤ y ∨ (∀ k ∈ stores.get i, k.line ≠ y) → offer = none) ∧
    (a.setup.base ≠ 0 → a.setup.x0 ≤ x → x < a.setup.x0 + a.setup.width → a.setup.y0 ≤ y →
      y < a.setup.y0 + a.setup.height →
      ∀ pre slot post p, stores.get i = pre ++ slot :: post → slot.line = y → (∀ k ∈ pre, k.line ≠ y) →
        slot.pixels[x - a.setup.x0]? = some p →
        (a.setup.marks.get p.mark = .plain →
          offer = some { priority := a.setup.base, colour := p.colour, cover := a.current, solid := false
                         station := station, layer := i.val }) ∧
        (a.setup.marks.get p.mark = .lift →
          offer = some { priority := if a.setup.base < 7 then a.setup.base + 1 else 7, colour := p.colour
                         cover := a.current, solid := false, station := station, layer := i.val }) ∧
        (a.setup.marks.get p.mark = .solid →
          offer = some { priority := a.setup.base, colour := p.colour, cover := 16, solid := true
                         station := station, layer := i.val }) ∧
        (a.setup.marks.get p.mark = .hole → offer = none))

/-- A MERGE cell of another frame, outside the committed picture, or of a line already left behind is passed on unchanged,
counts one frame mismatch, and does nothing else (R65 rows 1 to 3, R66; silence timer: log 21). -/
def Obligations.MergeCellsOutOfPlacePassUnmerged : Prop :=
  ∀ cell s, s.Hears → s.ring.state = .run → s.ring.role = .member → cellEpoch cell = s.epoch →
    (s.merge.lastTaken ≠ some (cellFrame cell) ∨ s.format.height ≤ cellLine cell ∨ s.format.spans ≤ cellSpan cell ∨
      ∃ l, s.source.mergeLine = some l ∧ cellLine cell < l) →
    ∃ t, exec (.merge cell) s = .next t ∧
      State.Forwards { s.heard with merge := { s.merge with mismatch := satInc s.merge.mismatch } } cell t

/-- A MERGE cell in place at a member leaves with the station's candidates inserted in its 32 pairs and every other byte
as it arrived; its line begins where it was not the current merge line, slots are read or missed, the cue and the end of
the line follow (R49 to R51, R55, R58, R67 to R69). All 32 pairs are written afresh, so that unnamed bits leave as 0 (log
17); one read of a store or one underrun stands for those of all the positions (log 16; silence timer: log 21; a cover
above 31 pushed into the second: log 12). -/
def Obligations.MergeCellsInPlaceAreMerged : Prop :=
  ∀ cell s, s.Hears → s.ring.state = .run → s.ring.role = .member → cellEpoch cell = s.epoch →
    s.merge.lastTaken = some (cellFrame cell) → cellLine cell < s.format.height → cellSpan cell < s.format.spans →
    (∀ l, s.source.mergeLine = some l → l ≤ cellLine cell) →
    ∃ v t, exec (.merge cell) s = .next t ∧
      s.MergeMoves (s.source.mergeLine != some (cellLine cell)) (cellFrame cell) (cellLine cell) (cellSpan cell) v ∧
      State.Forwards { s.heard with source := v }
        (cell.take 9 ++ pairsBytes (s.pairsMade (cellSpan cell) (cellLine cell) (readMerge cell).pairs) ++
          cell.drop 329) t

/-- A MERGE cell that returns to the origin and matches an IN_FLIGHT entry resolves it, makes every IN_FLIGHT entry before
it LOST by order, and clears the consecutive lap-limit count; one that matches none is stray and counted. It is not
forwarded (R87; silence timer: log 21). -/
def Obligations.ReturnsResolveTheirEntry : Prop :=
  ∀ cell s k m v, s.Hears → s.ring.state = .run → s.ring.role = .origin → s.ring.committed = some k →
    cellEpoch cell = s.epoch → m = readMerge cell →
    v = { mode := k.mode, backdrop := k.backdrop, cover := k.backdropCover : BlendValues } →
    ((∀ e ∈ s.origin.outstanding,
        ¬(e.state = .inFlight ∧ e.frame = m.frame ∧ e.line = m.line ∧ e.span = m.span)) →
      exec (.merge cell) s = .next { s.heard with origin := { s.origin with stray := satInc s.origin.stray } }) ∧
    ∀ pre e post, s.origin.outstanding = pre ++ e :: post →
      (e.state = .inFlight ∧ e.frame = m.frame ∧ e.line = m.line ∧ e.span = m.span) →
      (∀ d ∈ pre, ¬(d.state = .inFlight ∧ d.frame = m.frame ∧ d.line = m.line ∧ d.span = m.span)) →
      exec (.merge cell) s = .next
        { s.heard with
          origin := { s.origin with
            outstanding :=
              pre.map (fun d => if d.state = .inFlight then { d with state := .lost } else d) ++
                { e with state := .resolved (m.pairs.map (resolve v)) } :: post
            lostByOrder := satAdd s.origin.lostByOrder (pre.countP (fun d => d.state == .inFlight))
            lapCount := 0 } }

/-- A RESULT of the committed epoch at a member is handed to the tap and goes on unchanged; it changes nothing else (R71,
R166, R168; silence timer: log 21). -/
def Obligations.ResultsReachTheTapAndGoOn : Prop :=
  ∀ cell s, s.Hears → s.ring.state = .run → s.ring.role = .member → cellEpoch cell = s.epoch →
    ∃ v t, exec (.result cell) s = .next t ∧ s.ResultTapped (readResult cell) v ∧
      State.Forwards { s.heard with tap := v } cell t

/-- A BULLETIN of the committed epoch: the station's own is retired and clears the outstanding flag of its frame; a listed
peer's is recorded in the health table, tapped and passed on; any other is discarded (R174, R175; silence timer: log
21). -/
def Obligations.BulletinsAreRetiredOrPassedOn : Prop :=
  ∀ cell s k, s.Hears → s.ring.state = .run → s.ring.committed = some k → cellEpoch cell = k.epoch →
    (bulletinPosition cell = k.position →
      exec (.bulletin cell) s = .next
        { s.heard with
          bulletin :=
            if s.bulletin.outstanding = some (bulletinFrame cell) then { s.bulletin with outstanding := none }
            else s.bulletin }) ∧
    (bulletinPosition cell ≠ k.position →
      (k.roster[bulletinPosition cell]?).map RosterEntry.id = some (bulletinSender cell) →
      ∃ t, exec (.bulletin cell) s = .next t ∧
        State.Forwards
          { s.heard with
            bulletin := { s.bulletin with health := heardAt (bulletinPosition cell) s.bulletin.health }
            tap := s.tap.offer (.bulletin ((cell.drop 4).take 36)) } cell t) ∧
    (bulletinPosition cell ≠ k.position →
      (k.roster[bulletinPosition cell]?).map RosterEntry.id ≠ some (bulletinSender cell) →
      exec (.bulletin cell) s = .next s.heard)

/-! ## Departures -/

/-- The forward head is the first choice in ROLL, in RUN and, while the receiver is LOCKED, in RELAY; it leaves with its
CRC computed afresh and changes nothing else. The transmitter is silent in DARK, and in RELAY while the receiver is not
LOCKED, and the probe generator does not move then (R98, R110, R111, R115; time: log 3). -/
def Obligations.ForwardHeadLeavesFirst : Prop :=
  (∀ s, s.inReset = false → s.ring.state = .dark ∨ (s.ring.state = .relay ∧ s.rx.lock ≠ .locked) →
    exec .departureOpportunity s = .next { s with now := s.now + 1, tx := { s.tx with out := .silent } }) ∧
  ∀ s cell rest, s.inReset = false → s.tx.forward = cell :: rest →
    s.ring.state = .roll ∨ s.ring.state = .run ∨ (s.ring.state = .relay ∧ s.rx.lock = .locked) →
    exec .departureOpportunity s = .next
      { s with now := s.now + 1, tx := { s.tx with forward := rest, out := .cell (sealCell cell) } }

/-- Where nothing else can leave, a PROBE cell leaves: it carries the generator's byte position and the 24 bytes of the
stream from there, each position taken modulo 127, and the position moves 24 on, modulo 127 (R113, with R110; time: log
3). -/
def Obligations.ProbesFillIdleTime : Prop :=
  ∀ s, s.ProbeNext →
    exec .departureOpportunity s = .next
      { s with
        now := s.now + 1
        tx := { s.tx with
          out := .cell
            ([0xA7, 0x3C, 0x01, 0x00, BitVec.ofNat 8 s.tx.probePosition] ++
              (List.range 24).map (fun i => probeByte ((s.tx.probePosition + i) % 127)) ++ List.replicate 307 0)
          probePosition := (s.tx.probePosition + 24) % 127 } }

/-- The launch head leaves next in HALT, and in ROLL and RUN where nothing goes before it: a ROSTER starts the roster
timer, a COMMIT the commit limit, a HALT cell leaves as it is; a BULLETIN leaves with the 36 bytes of Table 12-4, is
marked outstanding, tapped and heard, and empties the capture it carries (R110, R111, R129, R138, R141, R173, R183; time:
log 3). -/
def Obligations.LaunchHeadLeaves : Prop :=
  ∀ s rest, s.LaunchHeadNext →
    (∀ r, s.tx.launch = .roster r :: rest →
      exec .departureOpportunity s = .next
        { s with
          now := s.now + 1
          ring := { s.ring with rosterTimer := some (s.now + 1 + 40000) }
          tx := { s.tx with launch := rest, out := .cell (sealCell r.bytes) } }) ∧
    (∀ c, s.tx.launch = .commit c :: rest →
      exec .departureOpportunity s = .next
        { s with
          now := s.now + 1
          ring := { s.ring with commitLimit := some (s.now + 1 + 40000) }
          tx := { s.tx with launch := rest, out := .cell (sealCell c.bytes) } }) ∧
    (∀ cell, s.tx.launch = .halt cell :: rest →
      exec .departureOpportunity s = .next
        { s with now := s.now + 1, tx := { s.tx with launch := rest, out := .cell (sealCell cell) } }) ∧
    ∀ b, s.tx.launch = .bulletin b :: rest → ∃ f, BulletinLaid b f ∧
      exec .departureOpportunity s = .next
        { s with
          now := s.now + 1
          bulletin := { s.bulletin with outstanding := some b.frame, health := heardAt b.position s.bulletin.health }
          tap := s.tap.offer (.bulletin f)
          checker := { s.checker with capture := if b.counters.capture = none then s.checker.capture else none }
          tx := { s.tx with
            launch := rest
            out := .cell (sealCell ([0xA7, 0x3C, 0x07, s.epoch] ++ f ++ List.replicate 296 0)) } }

/-- At the origin, with nothing to forward, the head of the outstanding list leaves as a RESULT once it is RESOLVED or
LOST: its own colours, or the backdrop everywhere with the LOST flag. The entry is removed and the origin's tap is handed
the same RESULT (R91, R110, R111, R166, R168; time: log 3). -/
def Obligations.ResultsLeaveTheOrigin : Prop :=
  ∀ s e rest k, s.inReset = false → s.ring.state = .run → s.ring.role = .origin → s.ring.committed = some k →
    s.tx.forward = [] → s.origin.outstanding = e :: rest → e.state ≠ .inFlight →
    ∃ d v, ResultFor e k.backdrop d ∧
      State.ResultTapped { s with now := s.now + 1, origin := { s.origin with outstanding := rest } } d v ∧
      exec .departureOpportunity s = .next
        { s with
          now := s.now + 1
          origin := { s.origin with outstanding := rest }
          tap := v
          tx := { s.tx with out := .cell (sealCell (resultCell k.epoch d)) } }

/-- At the origin, with nothing before it in the order, a merge launch builds the next span of the head line with the
origin's own candidates in empty pairs, moves the line stores as a member's merge does, appends an IN_FLIGHT entry and
goes on to the next span or line (R72, R83, R84, R110; reads: log 16; time: log 3). -/
def Obligations.MergeLaunchesLeaveTheOrigin : Prop :=
  ∀ s y ys k frame span last, s.inReset = false → s.ring.state = .run → s.ring.role = .origin →
    s.ring.committed = some k → s.tx.forward = [] →
    (∀ e, s.origin.outstanding.head? = some e → e.state = .inFlight) → s.origin.outstanding.length < 64 →
    s.origin.readyFrame = none → s.origin.lines = y :: ys → s.origin.frameNumber = some frame →
    s.merge.lastTaken = some frame → span = s.origin.nextSpan → last = decide (span + 1 = k.format.spans) →
    ∃ v, s.MergeMoves (span == 0) frame y span v ∧
      exec .departureOpportunity s = .next
        { s with
          now := s.now + 1
          source := v
          origin := { s.origin with
            outstanding := s.origin.outstanding ++
              [{ frame := frame, line := y, span := span, launch := s.now + 1, state := .inFlight }]
            lines := if last then ys else y :: ys
            nextSpan := if last then 0 else span + 1 }
          tx := { s.tx with
            out := .cell (sealCell (MergeCell.bytes
              { epoch := k.epoch, frame := frame, line := y, span := span
                pairs := s.pairsMade span y (List.replicate 32 Pair.empty) })) } }

/-! ## Timers -/

/-- A frame timer expiry falls floor(n × 20,000,000 / F) periods after the start, gives the frame its number, drops and
counts the lines not launched, restarts the line slot timer and makes the FRAME ready (R77, R78). Slot k falls k line
periods after it: slots 1 to 7 bring no line; slots 8 to height + 7 bring line k - 8, enqueued where the queue holds fewer than 2 lines and else skipped
and counted. The timer goes on to slot k + 1 and stops after slot height + 7 (R77, R80, R81; time: log 3). -/
def Obligations.FrameAndLineTimersPaceTheOrigin : Prop :=
  (∀ s t k n, s.inReset = false → s.ring.committed = some k → s.origin.frameTimer = some t →
    (s.origin.frameNumber = none → n = 0) → (∀ m, s.origin.frameNumber = some m → n = m + 1) →
    exec .frameTimerExpiry s = .next
      { s with
        now := max s.now (t.start + t.next * 20000000 / rateOf k.format.rate)
        origin := { s.origin with
          frameTimer := some { start := t.start, next := t.next + 1 }, frameNumber := some n
          skipped := satAdd s.origin.skipped s.origin.lines.length, lines := [], nextSpan := 0
          lineSlot := some 1, readyFrame := some n } }) ∧
  ∀ s t k slot, s.inReset = false → s.ring.committed = some k → s.origin.frameTimer = some t →
    s.origin.lineSlot = some slot →
    exec .lineSlotTimerExpiry s = .next
      { s with
        now := max s.now (t.start + ((t.next - 1) * (k.format.height + 8) + slot) * 20000000 /
          (rateOf k.format.rate * (k.format.height + 8)))
        origin := { s.origin with
          lines :=
            if 8 ≤ slot ∧ s.origin.lines.length < 2 then s.origin.lines ++ [slot - 8] else s.origin.lines
          skipped :=
            if 8 ≤ slot ∧ 2 ≤ s.origin.lines.length then satInc s.origin.skipped else s.origin.skipped
          lineSlot := if slot < k.format.height + 7 then some (slot + 1) else none } }

/-- The lap limit expires 20 µs after the launch of the oldest IN_FLIGHT entry: the entry becomes LOST by time and is
counted, the consecutive count adds one, and at 3 the origin raises LAP_TIMEOUT (R88; halt entry: logs 8, 10, 26, 30;
time: log 3). -/
def Obligations.LapLimitLosesTheOldestEntry : Prop :=
  ∀ s pre e post b, s.inReset = false → s.origin.outstanding = pre ++ e :: post → e.state = .inFlight →
    (∀ d ∈ pre, d.state ≠ .inFlight) →
    b = { s with
      now := max s.now (e.launch + 400)
      origin := { s.origin with
        outstanding := pre ++ { e with state := .lost } :: post
        lostByTime := satInc s.origin.lostByTime
        lapCount := s.origin.lapCount + 1 } } →
    (s.origin.lapCount ≠ 2 → exec .lapLimitExpiry s = .next b) ∧
    (s.origin.lapCount = 2 → ∃ t, exec .lapLimitExpiry s = .next t ∧ b.HaltRaised .lapTimeout s.epoch t)

/-- In ROLL the roster timer relaunches the station's roster, the no-origin timer sets the NO_ORIGIN flag, and the commit
limit of an elected station raises COMMIT_LOST with its last epoch; at any other station the commit limit only stops. An
expiry of the first-frame limit or of the frame-missing timer raises FRAME_MISSING with the committed epoch (R138, R145,
R147, R151, R153; halt entry: logs 8, 10, 26, 30; time: log 3). -/
def Obligations.RingTimersExpire : Prop :=
  ∀ s d, s.inReset = false →
    (s.ring.rosterTimer = some d → ∃ t, exec .rosterTimerExpiry s = .next t ∧
      State.RosterLaunched { s with now := max s.now d, ring := { s.ring with rosterTimer := none } } t) ∧
    (s.ring.noOriginTimer = some d →
      exec .noOriginTimerExpiry s = .next
        { s with now := max s.now d, ring := { s.ring with noOriginTimer := none, noOrigin := true } }) ∧
    (s.ring.commitLimit = some d → s.ring.state = .roll → s.ring.elected = true →
      ∃ t, exec .commitLimitExpiry s = .next t ∧
        State.HaltRaised { s with now := max s.now d, ring := { s.ring with commitLimit := none } }
          .commitLost s.ring.lastEpoch t) ∧
    (s.ring.commitLimit = some d → s.ring.state ≠ .roll ∨ s.ring.elected = false →
      exec .commitLimitExpiry s = .next
        { s with now := max s.now d, ring := { s.ring with commitLimit := none } }) ∧
    (s.ring.firstFrame = some d → ∃ t, exec .firstFrameLimitExpiry s = .next t ∧
      State.HaltRaised { s with now := max s.now d } .frameMissing s.epoch t) ∧
    (s.ring.frameMissing = some d → ∃ t, exec .frameMissingTimerExpiry s = .next t ∧
      State.HaltRaised { s with now := max s.now d } .frameMissing s.epoch t)

/-- At a hold-off expiry a station with demotion pending enters RELAY with that cause and FAULT asserted, both transmitter
queues emptied; any other enters LISTEN with its forward queue emptied, and goes straight on to ROLL where its link is
LOCKED and qualified (R107, R109, R133, R156, R158, R159). That a station which enters LISTEN here keeps its local launch
queue is log 25 (time: log 3). -/
def Obligations.HoldOffEndsInListenOrRelay : Prop :=
  ∀ s d, s.inReset = false → s.ring.holdOff = some d →
    (∀ c, s.ring.demotion = some c →
      exec .holdOffTimerExpiry s = .next
        { s with
          now := max s.now d
          ring := { s.ring with
            state := .relay, holdOff := none
            relayCause := if c = .duplicateId then .duplicateId else .ringTooLong }
          pins := { s.pins with fault := true }
          tx := { s.tx with forward := [], launch := [] } }) ∧
    (s.ring.demotion = none → ∃ b t, exec .holdOffTimerExpiry s = .next t ∧
      b = { s with
        now := max s.now d
        ring := { s.ring with state := .listen, holdOff := none }
        tx := { s.tx with forward := [] } } ∧
      (¬(s.rx.lock = .locked ∧ s.checker.qualified = true) → t = b) ∧
      (s.rx.lock = .locked → s.checker.qualified = true → b.EntersRoll t))

/-- The beacon timer expires every 1 ms, and at each expiry the tap unit is offered a STATUS record of the values that
stand (R163, R170; time: log 3). -/
def Obligations.BeaconsShowTheStation : Prop :=
  ∀ s d, s.inReset = false → s.ring.beacon = some d → ∃ x : Status,
    exec .beaconTimerExpiry s = .next
      { s with now := max s.now d, ring := { s.ring with beacon := some (d + 20000) }, tap := s.tap.offer (.status x) } ∧
    x.state = s.ring.state ∧ x.role = s.ring.role ∧ x.relayCause = s.ring.relayCause ∧ x.lock = s.rx.lock ∧
    x.sync = s.checker.sync ∧ x.qualified = s.checker.qualified ∧ x.noOrigin = s.ring.noOrigin ∧
    x.controlLost = s.tap.controlLost ∧ x.haltCount = s.ring.haltCount ∧ x.lastHalt = s.ring.lastHalt ∧
    (s.ring.config = none → x.stationId = 0 ∧ x.eligible = false ∧ x.tooDense = false) ∧
    ∀ c, s.ring.config = some c → x.stationId = c.stationId ∧ x.eligible = c.eligible ∧ x.tooDense = c.tooDense

/-! ## Source port and tap port -/

/-- A LAYER_SETUP record is refused NOT_RUNNING in DARK and RELAY and MALFORMED where it breaks a bound; otherwise it
replaces its shadow entry, pending, and counts SUPERSEDED where a setup was waiting. A record of unknown kind is refused
NOT_RUNNING in DARK and RELAY and MALFORMED elsewhere (R24 to R26, R41). The bytes are those of the words taken on
SRC_D, lines 31 to 24 first (R184); that an empty list of words answers like them is the model's choice (log 32). -/
def Obligations.SetupsAreTakenOrRefused : Prop :=
  ∀ ws r s, s.inReset = false → WordsCarry ws r →
    (s.ring.state = .dark ∨ s.ring.state = .relay →
      (∃ t, exec (.layerSetup ws) s = .next t ∧ s.Refused .notRunning t) ∧
        ∃ t, exec (.unknownRecord ws) s = .next t ∧ s.Refused .notRunning t) ∧
    (s.ring.state ≠ .dark → s.ring.state ≠ .relay →
      (∃ t, exec (.unknownRecord ws) s = .next t ∧ s.Refused .malformed t) ∧
      ((¬∃ i u, SetupGiven r i u) → ∃ t, exec (.layerSetup ws) s = .next t ∧ s.Refused .malformed t) ∧
      ∀ i u, SetupGiven r i u → ∃ b t, exec (.layerSetup ws) s = .next t ∧
        b = { s with layers := { s.layers with shadow := s.layers.shadow.set i { setup := u, pending := true } } } ∧
        ((s.layers.shadow.get i).pending = false → t = b) ∧
        ((s.layers.shadow.get i).pending = true → b.Refused .superseded t))

/-- A LINE record is checked against the eight conditions in their order; the first that holds refuses it, counting one
and changing nothing else. A record for which none holds is stored in a new slot of its layer's store, its read flag
clear (R43, R44, R47). The bytes are those of the words taken on SRC_D, lines 31 to 24 first (R184); that an empty list of
words answers like them is the model's choice (log 32). -/
def Obligations.LinesAreStoredOrRefused : Prop :=
  ∀ ws r s, s.inReset = false → WordsCarry ws r →
    (s.ring.state ≠ .run → ∃ t, exec (.line ws) s = .next t ∧ s.Refused .notRunning t) ∧
    (s.ring.state = .run → (¬∃ l, LineGiven r l) → ∃ t, exec (.line ws) s = .next t ∧ s.Refused .malformed t) ∧
    (s.ring.state = .run → ∀ l u store, LineGiven r l → u = (s.layers.active.get l.layer).setup →
      store = s.source.stores.get l.layer →
      ∃ t, exec (.line ws) s = .next t ∧
        if u.base = 0 then s.Refused .noLayer t
        else if l.pixels.length ≠ u.width then s.Refused .shape t
        else if l.line < u.y0 ∨ u.y0 + u.height - 1 < l.line then s.Refused .outside t
        else if ∃ m, s.source.mergeLine = some m ∧ l.line ≤ m then s.Refused .late t
        else if ∃ k ∈ store, k.line = l.line then s.Refused .duplicate t
        else if store.length = 4 then s.Refused .full t
        else
          t = { s with
            source := { s.source with
              stores := s.source.stores.set l.layer
                (store ++ [{ line := l.line, pixels := l.pixels, read := false }]) } })

/-- The head of the cue queue leaves on the return path as 64 bits, the most significant bit of byte 0 first, with
CUE_FRM asserted at each edge. The head of the tap queue leaves, laid out as Tables 12-6 to 12-8 have it, where the
consumer is ready: as whole words, lines 31 to 24 of TAP_D first and the last padded with 00h bytes, TAP_FRM asserted with
each word and deasserted after the last (R57, R163, R183, R184; the gap's length: log 18). With its queue empty a cue's
departure changes nothing (log 4). What the ports showed last is held (log 18). -/
def Obligations.CuesAndTapRecordsLeaveInOrder : Prop :=
  ∀ s, s.inReset = false →
    (∀ c rest, s.source.cues = c :: rest → ∃ bits,
      BitsCarry bits [0x03, 0x00, 0x08, c.frame.extractLsb' 8 8, c.frame.extractLsb' 0 8,
        BitVec.ofNat 8 (c.line / 256), BitVec.ofNat 8 c.line, 0x00] ∧
      exec .cueDeparts s = .next
        { s with
          source := { s.source with
            cues := rest
            cueBegun := false
            cueOut := bits.map .bit } }) ∧
    (s.source.cues = [] → exec .cueDeparts s = .next s) ∧
    (∀ r rest, s.tap.queue = r :: rest → ∃ bytes n ws, RecordLaid bytes r ∧ n < 4 ∧
      WordsCarry ws (bytes ++ List.replicate n 0) ∧
      exec (.tapRecordDeparts true) s = .next
        { s with tap := { s.tap with queue := rest, out := ws.map .word ++ [.idle] } }) ∧
    (s.tap.queue = [] → exec (.tapRecordDeparts true) s = .next s) ∧ exec (.tapRecordDeparts false) s = .next s

/-- A record offered to the tap queue is taken at its tail while fewer than 14 places are in use, or 16 for FRAME_BEGIN,
FRAME_END and HALT_NOTICE; else it is dropped and counted, and a dropped one of those three sets the control record lost
flag, which a STATUS or FRAME_END clears when it is taken (R163). -/
def Obligations.TapQueueTakesOrDrops : Prop :=
  ∀ (u : Tap) (r : TapRecord) (control carries : Bool),
    control = (match r with | .frameBegin .. => true | .frameEnd .. => true | .haltNotice _ => true | _ => false) →
    carries = (match r with | .frameEnd .. => true | .status _ => true | _ => false) →
    (u.queue.length < (if control then 16 else 14) →
      u.offer r = { u with queue := u.queue ++ [r], controlLost := !carries && u.controlLost }) ∧
    ((if control then 16 else 14) ≤ u.queue.length →
      u.offer r = { u with dropsFrame := satInc u.dropsFrame, drops := satInc u.drops
                           controlLost := control || u.controlLost })

/-! ## The merge rule -/

/-- Insertion by the first case that applies: takes the top, takes the second, no place. It keeps the order of R11 (R10,
R3). -/
def Obligations.InsertionFollowsPriority : Prop :=
  ∀ (p : Pair) (c : Candidate),
    (p.top.priority < c.priority →
      (p.insert c).top = c ∧
        (p.insert c).second = { priority := p.top.priority, colour := p.top.colour, cover := p.top.cover }) ∧
    (c.priority ≤ p.top.priority → p.second.priority < c.priority →
      (p.insert c).top = p.top ∧
        (p.insert c).second = { priority := c.priority, colour := c.colour, cover := c.cover }) ∧
    (c.priority ≤ p.top.priority → c.priority ≤ p.second.priority → p.insert c = p) ∧
    (p.Ordered → (p.insert c).Ordered) ∧ Pair.empty.Ordered

/-- The effect of R12: after any candidates are inserted in turn into an empty pair, the top is the first and the second
the second of those candidates sorted by priority, highest first, keeping the insertion order among equals. -/
def Obligations.PairKeepsTheTwoStrongestOffers : Prop :=
  ∀ (cs sorted : List Candidate), (∀ c ∈ cs, 1 ≤ c.priority) →
    sorted = cs.mergeSort (fun a b => decide (b.priority ≤ a.priority)) →
    (cs.foldl Pair.insert Pair.empty).top = (sorted[0]?).getD Pair.empty.top ∧
    (cs.foldl Pair.insert Pair.empty).second =
      ((sorted[1]?).map (fun c => { priority := c.priority, colour := c.colour, cover := c.cover : Second })).getD
        Pair.empty.second

/-- Resolve: an empty top gives the backdrop, a solid top its colour, any other top the blend, with the cover and the
other colour that the weight mode and the second give (R13 to R15), each component being
floor((c × t + (16 − c) × o + 8) / 16) (R16), for a backdrop cover of 0 to 16 (R13). -/
def Obligations.ResolveBlendsByTheWeightMode : Prop :=
  ∀ (v : BlendValues) (p : Pair) (c : Nat) (o : Colour), v.cover ≤ 16 →
    (c = match v.mode with
      | .top => min p.top.cover 16
      | .second => if p.second.priority = 0 then v.cover else min p.second.cover 16) →
    (o = if p.second.priority = 0 then v.backdrop else p.second.colour) →
    (p.top.priority = 0 → resolve v p = v.backdrop) ∧
    (p.top.priority ≠ 0 → p.top.solid = true → resolve v p = p.top.colour) ∧
    (p.top.priority ≠ 0 → p.top.solid = false →
      (resolve v p).r.toNat = (c * p.top.colour.r.toNat + (16 - c) * o.r.toNat + 8) / 16 ∧
      (resolve v p).g.toNat = (c * p.top.colour.g.toNat + (16 - c) * o.g.toNat + 8) / 16 ∧
      (resolve v p).b.toNat = (c * p.top.colour.b.toNat + (16 - c) * o.b.toNat + 8) / 16)

/-! ## Cells -/

/-- What a station sends is what the next one reads: a MERGE, RESULT, ROSTER, COMMIT or HALT cell opens with the start
mark, its kind and its epoch, and, sealed with its CRC, reads back every field at every value there is room for. Sealing
changes the last two bytes alone, and the cell then passes the receiver's CRC check (R97, R98, R100, R183). -/
def Obligations.SentCellsReadBack : Prop :=
  (∀ cell : CellBytes, cell.length = 336 →
    (sealCell cell).length = 336 ∧ (sealCell cell).take 334 = cell.take 334 ∧ crcGood (sealCell cell) = true) ∧
  (∀ m : MergeCell, m.Fits → m.bytes.length = 336 ∧ m.bytes.take 4 = [0xA7, 0x3C, 0x05, m.epoch] ∧
    readMerge (sealCell m.bytes) = m) ∧
  (∀ e (d : ResultData), d.Fits → (resultCell e d).length = 336 ∧
    (resultCell e d).take 4 = [0xA7, 0x3C, 0x06, e] ∧ readResult (sealCell (resultCell e d)) = d ∧
    cellEpoch (sealCell (resultCell e d)) = e) ∧
  (∀ r : RosterCell, r.Fits → r.bytes.length = 336 ∧ r.bytes.take 4 = [0xA7, 0x3C, 0x02, 0x00] ∧
    readRoster (sealCell r.bytes) = r) ∧
  (∀ c : CommitCell, c.Fits → c.bytes.length = 336 ∧ c.bytes.take 4 = [0xA7, 0x3C, 0x03, c.epoch] ∧
    readCommit (sealCell c.bytes) = c) ∧
  ∀ h : HaltRecord, 1 ≤ h.reporter.toNat → h.reporter.toNat ≤ 63 →
    (haltCellOf h).length = 336 ∧ (haltCellOf h).take 4 = [0xA7, 0x3C, 0x08, h.epoch] ∧
    readHalt (sealCell (haltCellOf h)) = some h

/-! ## Invariants -/

/-- The ring controller's law holds after reset and every step keeps it: a station is in RUN exactly while it holds a
committed roster, which lists its own serial at its position; it is ORIGIN exactly at position 0; RING_OK, ORIGIN and
FAULT follow. The hold-off runs in HALT alone, the two frame watches at a member, the frame and line slot timers and the
origin's lists at the origin, election, the roster timer, the no-origin timer and the NO_ORIGIN flag in ROLL, the commit
limit in ROLL or RUN, the beacon timer exactly outside DARK and RUN; a loader that reads, or a reset that is held, finds
the station in DARK (R75, R94, R109, R131, R136, R138, R146, R147, R149, R151, R156, R170, R176, R181; log 5). -/
def Obligations.EveryStepKeepsTheRingLaw : Prop :=
  State.reset.RingLaw ∧ ∀ s t, s.RingLaw → step s = .next t → t.RingLaw

/-- Every step keeps the link's law: a station in ROLL or RUN has a LOCKED receiver and a SYNCED checker, and a qualified
link is SYNCED (R118, R119, R122, R124, R127). -/
def Obligations.EveryStepKeepsTheLinkLaw : Prop :=
  ∀ s t, s.LinkLaw → step s = .next t → t.LinkLaw

/-- The line store law holds after reset and every step keeps it: a layer's line store holds at most 4 slots, no two with
the same line number, and none numbered below the current merge line (R53). -/
def Obligations.EveryStepKeepsTheLineStoreLaw : Prop :=
  State.reset.LineStoreLaw ∧ ∀ s t, s.LineStoreLaw → step s = .next t → t.LineStoreLaw

/-- The tap queue's law holds after reset and every step keeps it: at most 16 records, of which at most 14 are SPAN, GAP,
BULLETIN or STATUS (R164). -/
def Obligations.EveryStepKeepsTheTapLaw : Prop :=
  State.reset.TapLaw ∧ ∀ s t, s.TapLaw → step s = .next t → t.TapLaw

/-- Every step keeps the queues in their bounds: 4 cells to forward, one launch cell of each kind, 8 cues, 2 lines, 64
outstanding entries; and the ranges: probe position 0 to 126, retry count 0 to 3, lap-limit count 0 to 2 between commands,
next span below the committed width (R57, R75, R82, R84, R86, R106, R108, R112, R176). Every step keeps each span of a
frame once in the outstanding list (R86), as long as no entry is left of the frame that bore a number the last time when
the frame timer gives that number out again, 65,536 frames later. The begun mark of a cue is log 8. -/
def Obligations.EveryStepKeepsTheQueueAndSpanLaws : Prop :=
  (∀ s t, s.RingLaw → s.QueueLaw → step s = .next t → t.QueueLaw) ∧
    ∀ s t, s.SpanLaw →
      (∀ rest n, s.pending = .frameTimerExpiry :: rest → s.origin.frameNumber = some n →
        ∀ e ∈ s.origin.outstanding, e.frame ≠ n + 1) →
      step s = .next t → t.SpanLaw

/-- Every step keeps both layer tables in their ranges and every current cover in 0 to 16 (R19, R24, R35). -/
def Obligations.EveryStepKeepsTheLayerLaw : Prop :=
  ∀ s t, s.LayerLaw → step s = .next t → t.LayerLaw

/-- The seven laws hold in the state after reset (R22, R60, R76, R112, R116, R118, R131, R149, R162, R176). -/
def Obligations.TheLawsHoldAfterReset : Prop :=
  State.reset.RingLaw ∧ State.reset.LinkLaw ∧ State.reset.LineStoreLaw ∧ State.reset.TapLaw ∧ State.reset.QueueLaw ∧
    State.reset.SpanLaw ∧ State.reset.LayerLaw
end

