-- ==== Sys2Proof/Laws/Layouts.lean ====
section
/-! SUPPORT. The layouts of chapter 12 that the encoders of Machine/Operands.lean have: bulletins and tap records. -/
namespace Sys2Proof.Machine

/-! ## Fields -/

theorem halfBytes_join (h : Half) : (h.extractLsb' 8 8 ++ h.extractLsb' 0 8 : Half) = h := by
  apply BitVec.eq_of_toNat_eq
  rw [BitVec.toNat_append, BitVec.extractLsb'_toNat, BitVec.extractLsb'_toNat,
    ← Nat.shiftLeft_add_eq_or_of_lt (Nat.mod_lt _ (by decide)), Nat.shiftLeft_eq, Nat.shiftRight_eq_div_pow]
  have := h.isLt
  omega

/-- Flag bits side by side. -/
theorem flagsAre_six (a b c d e f : Bool) :
    FlagsAre (flagBit 0 a ||| flagBit 1 b ||| flagBit 2 c ||| flagBit 3 d ||| flagBit 4 e ||| flagBit 5 f)
      [a, b, c, d, e, f] := by
  unfold FlagsAre
  revert a b c d e f
  decide +kernel

theorem flagsAre_four (a b c d : Bool) :
    FlagsAre (flagBit 0 a ||| flagBit 1 b ||| flagBit 2 c ||| flagBit 3 d) [a, b, c, d] := by
  unfold FlagsAre
  revert a b c d
  decide +kernel

theorem flagsAre_one (a : Bool) : FlagsAre (flagBit 0 a) [a] := by
  unfold FlagsAre
  revert a
  decide +kernel

theorem silentMask_bit (l : List Nat) (n : Nat) (h : n < 16) :
    (silentMask l).getLsbD n = decide (n ∈ l) := by
  have key : ∀ (l : List Nat) (m : Half),
      (l.foldl (fun m n => m ||| BitVec.twoPow 16 n) m).getLsbD n = (m.getLsbD n || decide (n ∈ l)) := by
    intro l
    induction l with
    | nil => simp
    | cons a l ih =>
      intro m
      rw [List.foldl_cons, ih]
      by_cases hn : n = a
      · subst hn; simp [h]
      · have : ¬ a = n := fun h => hn h.symm
        simp [BitVec.getLsbD_twoPow, hn, this]
  simpa [silentMask] using key l 0

/-! ## Codes (Table 12-9) -/

theorem HaltCause.code_laid (c : HaltCause) : c.code = codeFrom 1 haltCauseSet c := by cases c <;> decide
theorem Reason.code_laid (c : Reason) : c.code = codeFrom 0 reasonSet c := by cases c <;> decide
theorem RingState.code_laid (c : RingState) : c.code = codeFrom 0 ringStateSet c := by cases c <;> decide
theorem Role.code_laid (c : Role) : c.code = codeFrom 0 roleSet c := by cases c <;> decide
theorem RelayCause.code_laid (c : RelayCause) : c.code = codeFrom 0 relayCauseSet c := by cases c <;> decide
theorem LockState.code_laid (c : LockState) :
    c.code = codeFrom 0 [LockState.noSignal, .aligning, .locked] c := by cases c <;> decide
theorem SyncState.code_laid (c : SyncState) : c.code = codeFrom 0 [SyncState.hunt, .synced] c := by cases c <;> decide

/-! ## Fields that may be absent: zero bytes where they are (R183) -/

theorem captureHasFrame_eq (c : Option Capture) : captureHasFrame c = (c.bind Capture.frame).isSome := by
  cases c <;> rfl

theorem lastHaltBytes_eq (h : Option HaltRecord) :
    lastHaltBytes h =
      [(h.map (fun k => codeFrom 1 haltCauseSet k.cause)).getD 0, (h.map HaltRecord.reporter).getD 0,
        (h.map HaltRecord.epoch).getD 0] := by
  cases h with
  | none => rfl
  | some k => simp [lastHaltBytes, HaltCause.code_laid]

theorem captureBytes_eq (c : Option Capture) :
    captureBytes c =
      [(c.map Capture.expected).getD 0, (c.map Capture.actual).getD 0,
        (c.map (fun k => BitVec.ofNat 8 k.position)).getD 0] ++ halfBytes ((c.bind Capture.frame).getD 0) := by
  cases c <;> rfl

theorem OriginCounters.bytes_eq (o : Option OriginCounters) :
    OriginCounters.bytes o =
      halfBytes ((o.map OriginCounters.byOrder).getD 0) ++ halfBytes ((o.map OriginCounters.byTime).getD 0) ++
        halfBytes ((o.map OriginCounters.skipped).getD 0) := by
  cases o <;> rfl

/-! ## Bulletins and tap records -/

/-- Table 12-4. -/
theorem Bulletin.bytes_laid (b : Bulletin) : BulletinLaid b b.bytes := by
  have fl := flagsAre_four b.counters.origin.isSome b.counters.lastHalt.isSome b.counters.capture.isSome
    (b.counters.capture.bind Capture.frame).isSome
  constructor
  all_goals
    simp only [Bulletin.bytes, lastHaltBytes_eq, captureBytes_eq, OriginCounters.bytes_eq, captureHasFrame_eq,
      halfBytes, coversBytes, Four.toList, List.map, List.cons_append, List.nil_append]
  case length => rfl
  case sender => exact ⟨rfl, rfl, Role.code_laid _⟩
  case presence => exact fl
  case frame => exact halfBytes_join _
  case counts => exact ⟨rfl, rfl, halfBytes_join _, halfBytes_join _, Reason.code_laid _, halfBytes_join _⟩
  case layers => exact ⟨rfl, fun i => by fin_cases i <;> rfl⟩
  case silent =>
    intro n hn
    rw [← silentMask_bit _ _ hn]
    exact congrArg (fun h : Half => h.getLsbD n) (halfBytes_join _)
  case origin => exact ⟨halfBytes_join _, halfBytes_join _, halfBytes_join _⟩
  case lastHalt => exact ⟨rfl, rfl, rfl⟩
  case capture => exact ⟨rfl, rfl, rfl, halfBytes_join _⟩
/-- Table 12-7, after the five bytes before it in the record. -/
theorem Trailer.bytes_laid (b : Bool) (tr : Trailer) (kind l0 l1 f0 f1 : Byte) :
    TrailerLaid b tr ([kind, l0, l1, f0, f1] ++ tr.bytes b) := by
  have fl := flagsAre_six b tr.controlLost tr.counters.origin.isSome tr.counters.lastHalt.isSome
    tr.counters.capture.isSome (tr.counters.capture.bind Capture.frame).isSome
  constructor
  all_goals
    simp only [Trailer.bytes, lastHaltBytes_eq, captureBytes_eq, OriginCounters.bytes_eq, captureHasFrame_eq,
      halfBytes, coversBytes, Four.toList, List.map, List.cons_append, List.nil_append]
  case flags => exact fl
  case counts =>
    exact ⟨rfl, rfl, halfBytes_join _, halfBytes_join _, Reason.code_laid _, halfBytes_join _, rfl⟩
  case layers => exact ⟨rfl, fun i => by fin_cases i <;> rfl⟩
  case cumulative =>
    exact ⟨halfBytes_join _, halfBytes_join _, halfBytes_join _, halfBytes_join _, halfBytes_join _, halfBytes_join _⟩
  case origin => exact ⟨⟨halfBytes_join _, halfBytes_join _, halfBytes_join _⟩, halfBytes_join _⟩
  case lastHalt => exact ⟨rfl, rfl, rfl⟩
  case capture => exact ⟨rfl, rfl, rfl, halfBytes_join _⟩

/-- Table 12-8, after kind code and length. -/
theorem Status.bytes_laid (x : Status) (kind l0 l1 : Byte) : StatusLaid x ([kind, l0, l1] ++ x.bytes) := by
  have fl := flagsAre_six x.eligible x.tooDense x.qualified x.noOrigin x.controlLost x.lastHalt.isSome
  constructor
  all_goals
    simp only [Status.bytes, lastHaltBytes_eq, List.cons_append, List.nil_append]
  case station => exact ⟨rfl, RingState.code_laid _, Role.code_laid _, RelayCause.code_laid _⟩
  case link => exact ⟨LockState.code_laid _, SyncState.code_laid _⟩
  case flags => exact fl
  case halts => exact ⟨rfl, rfl, rfl, rfl⟩
  case zero => rfl

theorem coloursBytes_at (cs : List Colour) (i : Nat) (c : Colour) (h : cs[i]? = some c) :
    (coloursBytes cs)[3 * i]? = some c.r ∧ (coloursBytes cs)[3 * i + 1]? = some c.g ∧
      (coloursBytes cs)[3 * i + 2]? = some c.b := by
  induction cs generalizing i with
  | nil => cases h
  | cons d cs ih =>
    cases i with
    | zero => cases h; exact ⟨rfl, rfl, rfl⟩
    | succ i => exact ih i h

theorem coloursBytes_length (cs : List Colour) : (coloursBytes cs).length = 3 * cs.length := by
  induction cs with
  | nil => rfl
  | cons c cs ih =>
    have e : coloursBytes (c :: cs) = c.r :: c.g :: c.b :: coloursBytes cs := rfl
    rw [e]
    simp only [List.length_cons, ih]
    omega

/-- Table 12-6. -/
theorem TapRecord.bytes_laid (r : TapRecord) : RecordLaid r.bytes r := by
  cases r with
  | frameBegin f e i =>
    exact ⟨rfl, ⟨rfl, halfBytes_join _⟩, halfBytes_join _, rfl, flagsAre_one i⟩
  | span d =>
    refine ⟨?_, ⟨rfl, halfBytes_join _⟩, halfBytes_join _, halfBytes_join _, rfl, flagsAre_one _, ?_⟩
    · simp only [TapRecord.bytes, List.length_append, coloursBytes_length]
      rfl
    · intro i c h
      obtain ⟨h0, h1, h2⟩ := coloursBytes_at _ _ _ h
      have at9 : ∀ j v, (coloursBytes d.colours)[j]? = some v → byteAt (TapRecord.bytes (.span d)) (9 + j) = v := by
        intro j v hv
        rw [Nat.add_comm]
        exact (congrArg (fun o : Option Byte => o.getD 0) hv)
      exact ⟨at9 _ _ h0, at9 _ _ h1, at9 _ _ h2⟩
  | gap f l s n => exact ⟨rfl, ⟨rfl, halfBytes_join _⟩, halfBytes_join _, halfBytes_join _, rfl, rfl, halfBytes_join _⟩
  | frameEnd f t tr =>
    refine ⟨?_, ⟨rfl, halfBytes_join _⟩, halfBytes_join _, Trailer.bytes_laid t tr _ _ _ _ _⟩
    simp [TapRecord.bytes, Trailer.bytes, lastHaltBytes_eq, captureBytes_eq, OriginCounters.bytes_eq, halfBytes,
      numBytes, coversBytes, Four.toList]
  | bulletin fields => exact ⟨by simp [TapRecord.bytes, numBytes, halfBytes]; omega, ⟨rfl, halfBytes_join _⟩, rfl⟩
  | haltNotice h => exact ⟨rfl, ⟨rfl, halfBytes_join _⟩, HaltCause.code_laid _, rfl, rfl⟩
  | status x =>
    refine ⟨?_, ⟨rfl, halfBytes_join _⟩, Status.bytes_laid x _ _ _⟩
    simp [TapRecord.bytes, Status.bytes, lastHaltBytes_eq, numBytes, halfBytes]

/-! ## Words and bits on the ports (R184) -/

/-- One word more at the front, and its four bytes. -/
theorem WordsCarry.cons {ws : List PortWord} {bs : List Byte} (h : WordsCarry ws bs) (w : PortWord) :
    WordsCarry (w :: ws)
      (w.extractLsb' 24 8 :: w.extractLsb' 16 8 :: w.extractLsb' 8 8 :: w.extractLsb' 0 8 :: bs) := by
  refine ⟨by simp only [List.length_cons, h.1]; omega, fun k v hv => ?_⟩
  cases k with
  | zero =>
    cases hv
    exact ⟨rfl, rfl, rfl, rfl⟩
  | succ k => exact h.2 k v hv

theorem WordsCarry.nil : WordsCarry [] [] := ⟨rfl, fun _ _ h => by cases h⟩

/-- The four bytes of a word, lines 31 to 24 first. -/
theorem wordBytes_eq (w : PortWord) :
    wordBytes w = [w.extractLsb' 24 8, w.extractLsb' 16 8, w.extractLsb' 8 8, w.extractLsb' 0 8] := by
  have part : ∀ j k, k ≤ 8 → (w.extractLsb' j 16).extractLsb' k 8 = w.extractLsb' (j + k) 8 := by
    intro j k hk
    apply BitVec.eq_of_getLsbD_eq
    intro i hlt
    simp only [BitVec.getLsbD_extractLsb', hlt, show k + i < 16 by omega, decide_true, Bool.true_and, Nat.add_assoc]
  unfold wordBytes halfBytes
  rw [part 16 8 (by omega), part 16 0 (by omega), part 0 8 (by omega), part 0 0 (by omega)]
  rfl

/-- What the source port reads is what the words carry. -/
theorem recordBytes_carried (ws : List PortWord) : WordsCarry ws (recordBytes ws) := by
  induction ws with
  | nil => exact WordsCarry.nil
  | cons w ws ih =>
    show WordsCarry (w :: ws) (wordBytes w ++ recordBytes ws)
    rw [wordBytes_eq]
    exact ih.cons w

/-- The bytes that words carry are theirs alone. -/
theorem WordsCarry.eq {ws : List PortWord} {bs : List Byte} (h : WordsCarry ws bs) : bs = recordBytes ws := by
  have g := recordBytes_carried ws
  refine List.ext_getElem (h.1.trans g.1.symm) fun i h1 h2 => ?_
  have at1 : byteAt bs i = bs[i] := by simp [byteAt, List.getD, h1]
  have at2 : byteAt (recordBytes ws) i = (recordBytes ws)[i] := by simp [byteAt, List.getD, h2]
  rw [← at1, ← at2]
  have hk : i / 4 < ws.length := by
    rw [h.1] at h1
    omega
  obtain ⟨a0, a1, a2, a3⟩ := h.2 _ _ (List.getElem?_eq_getElem hk)
  obtain ⟨b0, b1, b2, b3⟩ := g.2 _ _ (List.getElem?_eq_getElem hk)
  have hi : i = 4 * (i / 4) ∨ i = 4 * (i / 4) + 1 ∨ i = 4 * (i / 4) + 2 ∨ i = 4 * (i / 4) + 3 := by omega
  rcases hi with hi | hi | hi | hi <;> rw [hi]
  · exact a0.trans b0.symm
  · exact a1.trans b1.symm
  · exact a2.trans b2.symm
  · exact a3.trans b3.symm

/-- The bytes of a word made of four bytes side by side are those four. -/
theorem wordBytes_append (a b c d : Byte) :
    BitVec.extractLsb' 24 8 (a ++ b ++ c ++ d : BitVec (8 + 8 + 8 + 8)) = a ∧
      BitVec.extractLsb' 16 8 (a ++ b ++ c ++ d : BitVec (8 + 8 + 8 + 8)) = b ∧
      BitVec.extractLsb' 8 8 (a ++ b ++ c ++ d : BitVec (8 + 8 + 8 + 8)) = c ∧
      BitVec.extractLsb' 0 8 (a ++ b ++ c ++ d : BitVec (8 + 8 + 8 + 8)) = d := by
  refine ⟨?_, ?_, ?_, ?_⟩ <;> apply BitVec.eq_of_getLsbD_eq <;> intro i hi <;>
    simp only [BitVec.getLsbD_extractLsb', BitVec.getLsbD_append, hi, decide_true, Bool.true_and]
  · rw [if_neg (by omega), if_neg (by omega), if_neg (by omega)]; congr 1; omega
  · rw [if_neg (by omega), if_neg (by omega), if_pos (by omega)]; congr 1; omega
  · rw [if_neg (by omega), if_pos (by omega)]; congr 1; omega
  · rw [if_pos (by omega)]; congr 1; omega

/-- Four bytes side by side in a word. -/
theorem WordsCarry.bytes {ws : List PortWord} {bs : List Byte} (h : WordsCarry ws bs) (a b c d : Byte) :
    WordsCarry ((a ++ b ++ c ++ d) :: ws) (a :: b :: c :: d :: bs) := by
  obtain ⟨at24, at16, at8, at0⟩ := wordBytes_append a b c d
  have whole := h.cons (a ++ b ++ c ++ d)
  rwa [at24, at16, at8, at0] at whole

/-- A record is padded to whole words. -/
theorem wordsOf_carry (bs : List Byte) : ∃ n, n < 4 ∧ WordsCarry (wordsOf bs) (bs ++ List.replicate n 0) := by
  induction bs using wordsOf.induct with
  | case1 => exact ⟨0, by decide, WordsCarry.nil⟩
  | case2 a => exact ⟨3, by decide, WordsCarry.nil.bytes a 0 0 0⟩
  | case3 a b => exact ⟨2, by decide, WordsCarry.nil.bytes a b 0 0⟩
  | case4 a b c => exact ⟨1, by decide, WordsCarry.nil.bytes a b c 0⟩
  | case5 a b c d rest ih =>
    obtain ⟨n, hn, h⟩ := ih
    exact ⟨n, hn, h.bytes a b c d⟩

/-- The bits of bytes in order carry those bytes. -/
theorem byteBits_carry (bs : List Byte) : BitsCarry (bs.flatMap byteBits) bs := by
  induction bs with
  | nil => exact ⟨rfl, fun i j h => by cases h⟩
  | cons b bs ih =>
    have len : (byteBits b).length = 8 := by simp [byteBits]
    rw [List.flatMap_cons]
    refine ⟨by rw [List.length_append, len, ih.1, List.length_cons]; omega, fun i j hi hj => ?_⟩
    cases i with
    | zero =>
      rw [List.getElem?_append_left (by omega)]
      simp [byteBits, byteAt, hj]
    | succ i =>
      rw [List.getElem?_append_right (by omega), len, show 8 * (i + 1) + j - 8 = 8 * i + j by omega]
      exact ih.2 i j (by simpa using hi) hj

end Sys2Proof.Machine
end

