-- ==== Sys2Proof/Laws/State.lean ====
section
/-! SUPPORT. One lemma per field per update of State: each block's update changes that block and no other. -/
namespace Sys2Proof.Machine

@[simp] theorem State.setNow_now (s : State) (v : Nat) : (s.setNow v).now = v := rfl
@[simp] theorem State.setNow_inReset (s : State) (v : Nat) : (s.setNow v).inReset = s.inReset := rfl
@[simp] theorem State.setNow_serial (s : State) (v : Nat) : (s.setNow v).serial = s.serial := rfl
@[simp] theorem State.setNow_loader (s : State) (v : Nat) : (s.setNow v).loader = s.loader := rfl
@[simp] theorem State.setNow_rx (s : State) (v : Nat) : (s.setNow v).rx = s.rx := rfl
@[simp] theorem State.setNow_checker (s : State) (v : Nat) : (s.setNow v).checker = s.checker := rfl
@[simp] theorem State.setNow_filter (s : State) (v : Nat) : (s.setNow v).filter = s.filter := rfl
@[simp] theorem State.setNow_ring (s : State) (v : Nat) : (s.setNow v).ring = s.ring := rfl
@[simp] theorem State.setNow_layers (s : State) (v : Nat) : (s.setNow v).layers = s.layers := rfl
@[simp] theorem State.setNow_source (s : State) (v : Nat) : (s.setNow v).source = s.source := rfl
@[simp] theorem State.setNow_merge (s : State) (v : Nat) : (s.setNow v).merge = s.merge := rfl
@[simp] theorem State.setNow_origin (s : State) (v : Nat) : (s.setNow v).origin = s.origin := rfl
@[simp] theorem State.setNow_tx (s : State) (v : Nat) : (s.setNow v).tx = s.tx := rfl
@[simp] theorem State.setNow_tap (s : State) (v : Nat) : (s.setNow v).tap = s.tap := rfl
@[simp] theorem State.setNow_bulletin (s : State) (v : Nat) : (s.setNow v).bulletin = s.bulletin := rfl
@[simp] theorem State.setNow_pins (s : State) (v : Nat) : (s.setNow v).pins = s.pins := rfl
@[simp] theorem State.setNow_freeCount (s : State) (v : Nat) : (s.setNow v).freeCount = s.freeCount := rfl
@[simp] theorem State.setNow_pending (s : State) (v : Nat) : (s.setNow v).pending = s.pending := rfl

@[simp] theorem State.setInReset_now (s : State) (v : Bool) : (s.setInReset v).now = s.now := rfl
@[simp] theorem State.setInReset_inReset (s : State) (v : Bool) : (s.setInReset v).inReset = v := rfl
@[simp] theorem State.setInReset_serial (s : State) (v : Bool) : (s.setInReset v).serial = s.serial := rfl
@[simp] theorem State.setInReset_loader (s : State) (v : Bool) : (s.setInReset v).loader = s.loader := rfl
@[simp] theorem State.setInReset_rx (s : State) (v : Bool) : (s.setInReset v).rx = s.rx := rfl
@[simp] theorem State.setInReset_checker (s : State) (v : Bool) : (s.setInReset v).checker = s.checker := rfl
@[simp] theorem State.setInReset_filter (s : State) (v : Bool) : (s.setInReset v).filter = s.filter := rfl
@[simp] theorem State.setInReset_ring (s : State) (v : Bool) : (s.setInReset v).ring = s.ring := rfl
@[simp] theorem State.setInReset_layers (s : State) (v : Bool) : (s.setInReset v).layers = s.layers := rfl
@[simp] theorem State.setInReset_source (s : State) (v : Bool) : (s.setInReset v).source = s.source := rfl
@[simp] theorem State.setInReset_merge (s : State) (v : Bool) : (s.setInReset v).merge = s.merge := rfl
@[simp] theorem State.setInReset_origin (s : State) (v : Bool) : (s.setInReset v).origin = s.origin := rfl
@[simp] theorem State.setInReset_tx (s : State) (v : Bool) : (s.setInReset v).tx = s.tx := rfl
@[simp] theorem State.setInReset_tap (s : State) (v : Bool) : (s.setInReset v).tap = s.tap := rfl
@[simp] theorem State.setInReset_bulletin (s : State) (v : Bool) : (s.setInReset v).bulletin = s.bulletin := rfl
@[simp] theorem State.setInReset_pins (s : State) (v : Bool) : (s.setInReset v).pins = s.pins := rfl
@[simp] theorem State.setInReset_freeCount (s : State) (v : Bool) : (s.setInReset v).freeCount = s.freeCount := rfl
@[simp] theorem State.setInReset_pending (s : State) (v : Bool) : (s.setInReset v).pending = s.pending := rfl

@[simp] theorem State.setLoader_now (s : State) (v : Loader) : (s.setLoader v).now = s.now := rfl
@[simp] theorem State.setLoader_inReset (s : State) (v : Loader) : (s.setLoader v).inReset = s.inReset := rfl
@[simp] theorem State.setLoader_serial (s : State) (v : Loader) : (s.setLoader v).serial = s.serial := rfl
@[simp] theorem State.setLoader_loader (s : State) (v : Loader) : (s.setLoader v).loader = v := rfl
@[simp] theorem State.setLoader_rx (s : State) (v : Loader) : (s.setLoader v).rx = s.rx := rfl
@[simp] theorem State.setLoader_checker (s : State) (v : Loader) : (s.setLoader v).checker = s.checker := rfl
@[simp] theorem State.setLoader_filter (s : State) (v : Loader) : (s.setLoader v).filter = s.filter := rfl
@[simp] theorem State.setLoader_ring (s : State) (v : Loader) : (s.setLoader v).ring = s.ring := rfl
@[simp] theorem State.setLoader_layers (s : State) (v : Loader) : (s.setLoader v).layers = s.layers := rfl
@[simp] theorem State.setLoader_source (s : State) (v : Loader) : (s.setLoader v).source = s.source := rfl
@[simp] theorem State.setLoader_merge (s : State) (v : Loader) : (s.setLoader v).merge = s.merge := rfl
@[simp] theorem State.setLoader_origin (s : State) (v : Loader) : (s.setLoader v).origin = s.origin := rfl
@[simp] theorem State.setLoader_tx (s : State) (v : Loader) : (s.setLoader v).tx = s.tx := rfl
@[simp] theorem State.setLoader_tap (s : State) (v : Loader) : (s.setLoader v).tap = s.tap := rfl
@[simp] theorem State.setLoader_bulletin (s : State) (v : Loader) : (s.setLoader v).bulletin = s.bulletin := rfl
@[simp] theorem State.setLoader_pins (s : State) (v : Loader) : (s.setLoader v).pins = s.pins := rfl
@[simp] theorem State.setLoader_freeCount (s : State) (v : Loader) : (s.setLoader v).freeCount = s.freeCount := rfl
@[simp] theorem State.setLoader_pending (s : State) (v : Loader) : (s.setLoader v).pending = s.pending := rfl

@[simp] theorem State.setRx_now (s : State) (v : Receiver) : (s.setRx v).now = s.now := rfl
@[simp] theorem State.setRx_inReset (s : State) (v : Receiver) : (s.setRx v).inReset = s.inReset := rfl
@[simp] theorem State.setRx_serial (s : State) (v : Receiver) : (s.setRx v).serial = s.serial := rfl
@[simp] theorem State.setRx_loader (s : State) (v : Receiver) : (s.setRx v).loader = s.loader := rfl
@[simp] theorem State.setRx_rx (s : State) (v : Receiver) : (s.setRx v).rx = v := rfl
@[simp] theorem State.setRx_checker (s : State) (v : Receiver) : (s.setRx v).checker = s.checker := rfl
@[simp] theorem State.setRx_filter (s : State) (v : Receiver) : (s.setRx v).filter = s.filter := rfl
@[simp] theorem State.setRx_ring (s : State) (v : Receiver) : (s.setRx v).ring = s.ring := rfl
@[simp] theorem State.setRx_layers (s : State) (v : Receiver) : (s.setRx v).layers = s.layers := rfl
@[simp] theorem State.setRx_source (s : State) (v : Receiver) : (s.setRx v).source = s.source := rfl
@[simp] theorem State.setRx_merge (s : State) (v : Receiver) : (s.setRx v).merge = s.merge := rfl
@[simp] theorem State.setRx_origin (s : State) (v : Receiver) : (s.setRx v).origin = s.origin := rfl
@[simp] theorem State.setRx_tx (s : State) (v : Receiver) : (s.setRx v).tx = s.tx := rfl
@[simp] theorem State.setRx_tap (s : State) (v : Receiver) : (s.setRx v).tap = s.tap := rfl
@[simp] theorem State.setRx_bulletin (s : State) (v : Receiver) : (s.setRx v).bulletin = s.bulletin := rfl
@[simp] theorem State.setRx_pins (s : State) (v : Receiver) : (s.setRx v).pins = s.pins := rfl
@[simp] theorem State.setRx_freeCount (s : State) (v : Receiver) : (s.setRx v).freeCount = s.freeCount := rfl
@[simp] theorem State.setRx_pending (s : State) (v : Receiver) : (s.setRx v).pending = s.pending := rfl

@[simp] theorem State.setChecker_now (s : State) (v : Checker) : (s.setChecker v).now = s.now := rfl
@[simp] theorem State.setChecker_inReset (s : State) (v : Checker) : (s.setChecker v).inReset = s.inReset := rfl
@[simp] theorem State.setChecker_serial (s : State) (v : Checker) : (s.setChecker v).serial = s.serial := rfl
@[simp] theorem State.setChecker_loader (s : State) (v : Checker) : (s.setChecker v).loader = s.loader := rfl
@[simp] theorem State.setChecker_rx (s : State) (v : Checker) : (s.setChecker v).rx = s.rx := rfl
@[simp] theorem State.setChecker_checker (s : State) (v : Checker) : (s.setChecker v).checker = v := rfl
@[simp] theorem State.setChecker_filter (s : State) (v : Checker) : (s.setChecker v).filter = s.filter := rfl
@[simp] theorem State.setChecker_ring (s : State) (v : Checker) : (s.setChecker v).ring = s.ring := rfl
@[simp] theorem State.setChecker_layers (s : State) (v : Checker) : (s.setChecker v).layers = s.layers := rfl
@[simp] theorem State.setChecker_source (s : State) (v : Checker) : (s.setChecker v).source = s.source := rfl
@[simp] theorem State.setChecker_merge (s : State) (v : Checker) : (s.setChecker v).merge = s.merge := rfl
@[simp] theorem State.setChecker_origin (s : State) (v : Checker) : (s.setChecker v).origin = s.origin := rfl
@[simp] theorem State.setChecker_tx (s : State) (v : Checker) : (s.setChecker v).tx = s.tx := rfl
@[simp] theorem State.setChecker_tap (s : State) (v : Checker) : (s.setChecker v).tap = s.tap := rfl
@[simp] theorem State.setChecker_bulletin (s : State) (v : Checker) : (s.setChecker v).bulletin = s.bulletin := rfl
@[simp] theorem State.setChecker_pins (s : State) (v : Checker) : (s.setChecker v).pins = s.pins := rfl
@[simp] theorem State.setChecker_freeCount (s : State) (v : Checker) : (s.setChecker v).freeCount = s.freeCount := rfl
@[simp] theorem State.setChecker_pending (s : State) (v : Checker) : (s.setChecker v).pending = s.pending := rfl

@[simp] theorem State.setFilter_now (s : State) (v : Filter) : (s.setFilter v).now = s.now := rfl
@[simp] theorem State.setFilter_inReset (s : State) (v : Filter) : (s.setFilter v).inReset = s.inReset := rfl
@[simp] theorem State.setFilter_serial (s : State) (v : Filter) : (s.setFilter v).serial = s.serial := rfl
@[simp] theorem State.setFilter_loader (s : State) (v : Filter) : (s.setFilter v).loader = s.loader := rfl
@[simp] theorem State.setFilter_rx (s : State) (v : Filter) : (s.setFilter v).rx = s.rx := rfl
@[simp] theorem State.setFilter_checker (s : State) (v : Filter) : (s.setFilter v).checker = s.checker := rfl
@[simp] theorem State.setFilter_filter (s : State) (v : Filter) : (s.setFilter v).filter = v := rfl
@[simp] theorem State.setFilter_ring (s : State) (v : Filter) : (s.setFilter v).ring = s.ring := rfl
@[simp] theorem State.setFilter_layers (s : State) (v : Filter) : (s.setFilter v).layers = s.layers := rfl
@[simp] theorem State.setFilter_source (s : State) (v : Filter) : (s.setFilter v).source = s.source := rfl
@[simp] theorem State.setFilter_merge (s : State) (v : Filter) : (s.setFilter v).merge = s.merge := rfl
@[simp] theorem State.setFilter_origin (s : State) (v : Filter) : (s.setFilter v).origin = s.origin := rfl
@[simp] theorem State.setFilter_tx (s : State) (v : Filter) : (s.setFilter v).tx = s.tx := rfl
@[simp] theorem State.setFilter_tap (s : State) (v : Filter) : (s.setFilter v).tap = s.tap := rfl
@[simp] theorem State.setFilter_bulletin (s : State) (v : Filter) : (s.setFilter v).bulletin = s.bulletin := rfl
@[simp] theorem State.setFilter_pins (s : State) (v : Filter) : (s.setFilter v).pins = s.pins := rfl
@[simp] theorem State.setFilter_freeCount (s : State) (v : Filter) : (s.setFilter v).freeCount = s.freeCount := rfl
@[simp] theorem State.setFilter_pending (s : State) (v : Filter) : (s.setFilter v).pending = s.pending := rfl

@[simp] theorem State.setRing_now (s : State) (v : Ring) : (s.setRing v).now = s.now := rfl
@[simp] theorem State.setRing_inReset (s : State) (v : Ring) : (s.setRing v).inReset = s.inReset := rfl
@[simp] theorem State.setRing_serial (s : State) (v : Ring) : (s.setRing v).serial = s.serial := rfl
@[simp] theorem State.setRing_loader (s : State) (v : Ring) : (s.setRing v).loader = s.loader := rfl
@[simp] theorem State.setRing_rx (s : State) (v : Ring) : (s.setRing v).rx = s.rx := rfl
@[simp] theorem State.setRing_checker (s : State) (v : Ring) : (s.setRing v).checker = s.checker := rfl
@[simp] theorem State.setRing_filter (s : State) (v : Ring) : (s.setRing v).filter = s.filter := rfl
@[simp] theorem State.setRing_ring (s : State) (v : Ring) : (s.setRing v).ring = v := rfl
@[simp] theorem State.setRing_layers (s : State) (v : Ring) : (s.setRing v).layers = s.layers := rfl
@[simp] theorem State.setRing_source (s : State) (v : Ring) : (s.setRing v).source = s.source := rfl
@[simp] theorem State.setRing_merge (s : State) (v : Ring) : (s.setRing v).merge = s.merge := rfl
@[simp] theorem State.setRing_origin (s : State) (v : Ring) : (s.setRing v).origin = s.origin := rfl
@[simp] theorem State.setRing_tx (s : State) (v : Ring) : (s.setRing v).tx = s.tx := rfl
@[simp] theorem State.setRing_tap (s : State) (v : Ring) : (s.setRing v).tap = s.tap := rfl
@[simp] theorem State.setRing_bulletin (s : State) (v : Ring) : (s.setRing v).bulletin = s.bulletin := rfl
@[simp] theorem State.setRing_pins (s : State) (v : Ring) : (s.setRing v).pins = s.pins := rfl
@[simp] theorem State.setRing_freeCount (s : State) (v : Ring) : (s.setRing v).freeCount = s.freeCount := rfl
@[simp] theorem State.setRing_pending (s : State) (v : Ring) : (s.setRing v).pending = s.pending := rfl

@[simp] theorem State.setLayers_now (s : State) (v : Layers) : (s.setLayers v).now = s.now := rfl
@[simp] theorem State.setLayers_inReset (s : State) (v : Layers) : (s.setLayers v).inReset = s.inReset := rfl
@[simp] theorem State.setLayers_serial (s : State) (v : Layers) : (s.setLayers v).serial = s.serial := rfl
@[simp] theorem State.setLayers_loader (s : State) (v : Layers) : (s.setLayers v).loader = s.loader := rfl
@[simp] theorem State.setLayers_rx (s : State) (v : Layers) : (s.setLayers v).rx = s.rx := rfl
@[simp] theorem State.setLayers_checker (s : State) (v : Layers) : (s.setLayers v).checker = s.checker := rfl
@[simp] theorem State.setLayers_filter (s : State) (v : Layers) : (s.setLayers v).filter = s.filter := rfl
@[simp] theorem State.setLayers_ring (s : State) (v : Layers) : (s.setLayers v).ring = s.ring := rfl
@[simp] theorem State.setLayers_layers (s : State) (v : Layers) : (s.setLayers v).layers = v := rfl
@[simp] theorem State.setLayers_source (s : State) (v : Layers) : (s.setLayers v).source = s.source := rfl
@[simp] theorem State.setLayers_merge (s : State) (v : Layers) : (s.setLayers v).merge = s.merge := rfl
@[simp] theorem State.setLayers_origin (s : State) (v : Layers) : (s.setLayers v).origin = s.origin := rfl
@[simp] theorem State.setLayers_tx (s : State) (v : Layers) : (s.setLayers v).tx = s.tx := rfl
@[simp] theorem State.setLayers_tap (s : State) (v : Layers) : (s.setLayers v).tap = s.tap := rfl
@[simp] theorem State.setLayers_bulletin (s : State) (v : Layers) : (s.setLayers v).bulletin = s.bulletin := rfl
@[simp] theorem State.setLayers_pins (s : State) (v : Layers) : (s.setLayers v).pins = s.pins := rfl
@[simp] theorem State.setLayers_freeCount (s : State) (v : Layers) : (s.setLayers v).freeCount = s.freeCount := rfl
@[simp] theorem State.setLayers_pending (s : State) (v : Layers) : (s.setLayers v).pending = s.pending := rfl

@[simp] theorem State.setSource_now (s : State) (v : Source) : (s.setSource v).now = s.now := rfl
@[simp] theorem State.setSource_inReset (s : State) (v : Source) : (s.setSource v).inReset = s.inReset := rfl
@[simp] theorem State.setSource_serial (s : State) (v : Source) : (s.setSource v).serial = s.serial := rfl
@[simp] theorem State.setSource_loader (s : State) (v : Source) : (s.setSource v).loader = s.loader := rfl
@[simp] theorem State.setSource_rx (s : State) (v : Source) : (s.setSource v).rx = s.rx := rfl
@[simp] theorem State.setSource_checker (s : State) (v : Source) : (s.setSource v).checker = s.checker := rfl
@[simp] theorem State.setSource_filter (s : State) (v : Source) : (s.setSource v).filter = s.filter := rfl
@[simp] theorem State.setSource_ring (s : State) (v : Source) : (s.setSource v).ring = s.ring := rfl
@[simp] theorem State.setSource_layers (s : State) (v : Source) : (s.setSource v).layers = s.layers := rfl
@[simp] theorem State.setSource_source (s : State) (v : Source) : (s.setSource v).source = v := rfl
@[simp] theorem State.setSource_merge (s : State) (v : Source) : (s.setSource v).merge = s.merge := rfl
@[simp] theorem State.setSource_origin (s : State) (v : Source) : (s.setSource v).origin = s.origin := rfl
@[simp] theorem State.setSource_tx (s : State) (v : Source) : (s.setSource v).tx = s.tx := rfl
@[simp] theorem State.setSource_tap (s : State) (v : Source) : (s.setSource v).tap = s.tap := rfl
@[simp] theorem State.setSource_bulletin (s : State) (v : Source) : (s.setSource v).bulletin = s.bulletin := rfl
@[simp] theorem State.setSource_pins (s : State) (v : Source) : (s.setSource v).pins = s.pins := rfl
@[simp] theorem State.setSource_freeCount (s : State) (v : Source) : (s.setSource v).freeCount = s.freeCount := rfl
@[simp] theorem State.setSource_pending (s : State) (v : Source) : (s.setSource v).pending = s.pending := rfl

@[simp] theorem State.setMerge_now (s : State) (v : MergeStage) : (s.setMerge v).now = s.now := rfl
@[simp] theorem State.setMerge_inReset (s : State) (v : MergeStage) : (s.setMerge v).inReset = s.inReset := rfl
@[simp] theorem State.setMerge_serial (s : State) (v : MergeStage) : (s.setMerge v).serial = s.serial := rfl
@[simp] theorem State.setMerge_loader (s : State) (v : MergeStage) : (s.setMerge v).loader = s.loader := rfl
@[simp] theorem State.setMerge_rx (s : State) (v : MergeStage) : (s.setMerge v).rx = s.rx := rfl
@[simp] theorem State.setMerge_checker (s : State) (v : MergeStage) : (s.setMerge v).checker = s.checker := rfl
@[simp] theorem State.setMerge_filter (s : State) (v : MergeStage) : (s.setMerge v).filter = s.filter := rfl
@[simp] theorem State.setMerge_ring (s : State) (v : MergeStage) : (s.setMerge v).ring = s.ring := rfl
@[simp] theorem State.setMerge_layers (s : State) (v : MergeStage) : (s.setMerge v).layers = s.layers := rfl
@[simp] theorem State.setMerge_source (s : State) (v : MergeStage) : (s.setMerge v).source = s.source := rfl
@[simp] theorem State.setMerge_merge (s : State) (v : MergeStage) : (s.setMerge v).merge = v := rfl
@[simp] theorem State.setMerge_origin (s : State) (v : MergeStage) : (s.setMerge v).origin = s.origin := rfl
@[simp] theorem State.setMerge_tx (s : State) (v : MergeStage) : (s.setMerge v).tx = s.tx := rfl
@[simp] theorem State.setMerge_tap (s : State) (v : MergeStage) : (s.setMerge v).tap = s.tap := rfl
@[simp] theorem State.setMerge_bulletin (s : State) (v : MergeStage) : (s.setMerge v).bulletin = s.bulletin := rfl
@[simp] theorem State.setMerge_pins (s : State) (v : MergeStage) : (s.setMerge v).pins = s.pins := rfl
@[simp] theorem State.setMerge_freeCount (s : State) (v : MergeStage) : (s.setMerge v).freeCount = s.freeCount := rfl
@[simp] theorem State.setMerge_pending (s : State) (v : MergeStage) : (s.setMerge v).pending = s.pending := rfl

@[simp] theorem State.setOrigin_now (s : State) (v : OriginEngine) : (s.setOrigin v).now = s.now := rfl
@[simp] theorem State.setOrigin_inReset (s : State) (v : OriginEngine) : (s.setOrigin v).inReset = s.inReset := rfl
@[simp] theorem State.setOrigin_serial (s : State) (v : OriginEngine) : (s.setOrigin v).serial = s.serial := rfl
@[simp] theorem State.setOrigin_loader (s : State) (v : OriginEngine) : (s.setOrigin v).loader = s.loader := rfl
@[simp] theorem State.setOrigin_rx (s : State) (v : OriginEngine) : (s.setOrigin v).rx = s.rx := rfl
@[simp] theorem State.setOrigin_checker (s : State) (v : OriginEngine) : (s.setOrigin v).checker = s.checker := rfl
@[simp] theorem State.setOrigin_filter (s : State) (v : OriginEngine) : (s.setOrigin v).filter = s.filter := rfl
@[simp] theorem State.setOrigin_ring (s : State) (v : OriginEngine) : (s.setOrigin v).ring = s.ring := rfl
@[simp] theorem State.setOrigin_layers (s : State) (v : OriginEngine) : (s.setOrigin v).layers = s.layers := rfl
@[simp] theorem State.setOrigin_source (s : State) (v : OriginEngine) : (s.setOrigin v).source = s.source := rfl
@[simp] theorem State.setOrigin_merge (s : State) (v : OriginEngine) : (s.setOrigin v).merge = s.merge := rfl
@[simp] theorem State.setOrigin_origin (s : State) (v : OriginEngine) : (s.setOrigin v).origin = v := rfl
@[simp] theorem State.setOrigin_tx (s : State) (v : OriginEngine) : (s.setOrigin v).tx = s.tx := rfl
@[simp] theorem State.setOrigin_tap (s : State) (v : OriginEngine) : (s.setOrigin v).tap = s.tap := rfl
@[simp] theorem State.setOrigin_bulletin (s : State) (v : OriginEngine) : (s.setOrigin v).bulletin = s.bulletin := rfl
@[simp] theorem State.setOrigin_pins (s : State) (v : OriginEngine) : (s.setOrigin v).pins = s.pins := rfl
@[simp] theorem State.setOrigin_freeCount (s : State) (v : OriginEngine) : (s.setOrigin v).freeCount = s.freeCount := rfl
@[simp] theorem State.setOrigin_pending (s : State) (v : OriginEngine) : (s.setOrigin v).pending = s.pending := rfl

@[simp] theorem State.setTx_now (s : State) (v : Transmitter) : (s.setTx v).now = s.now := rfl
@[simp] theorem State.setTx_inReset (s : State) (v : Transmitter) : (s.setTx v).inReset = s.inReset := rfl
@[simp] theorem State.setTx_serial (s : State) (v : Transmitter) : (s.setTx v).serial = s.serial := rfl
@[simp] theorem State.setTx_loader (s : State) (v : Transmitter) : (s.setTx v).loader = s.loader := rfl
@[simp] theorem State.setTx_rx (s : State) (v : Transmitter) : (s.setTx v).rx = s.rx := rfl
@[simp] theorem State.setTx_checker (s : State) (v : Transmitter) : (s.setTx v).checker = s.checker := rfl
@[simp] theorem State.setTx_filter (s : State) (v : Transmitter) : (s.setTx v).filter = s.filter := rfl
@[simp] theorem State.setTx_ring (s : State) (v : Transmitter) : (s.setTx v).ring = s.ring := rfl
@[simp] theorem State.setTx_layers (s : State) (v : Transmitter) : (s.setTx v).layers = s.layers := rfl
@[simp] theorem State.setTx_source (s : State) (v : Transmitter) : (s.setTx v).source = s.source := rfl
@[simp] theorem State.setTx_merge (s : State) (v : Transmitter) : (s.setTx v).merge = s.merge := rfl
@[simp] theorem State.setTx_origin (s : State) (v : Transmitter) : (s.setTx v).origin = s.origin := rfl
@[simp] theorem State.setTx_tx (s : State) (v : Transmitter) : (s.setTx v).tx = v := rfl
@[simp] theorem State.setTx_tap (s : State) (v : Transmitter) : (s.setTx v).tap = s.tap := rfl
@[simp] theorem State.setTx_bulletin (s : State) (v : Transmitter) : (s.setTx v).bulletin = s.bulletin := rfl
@[simp] theorem State.setTx_pins (s : State) (v : Transmitter) : (s.setTx v).pins = s.pins := rfl
@[simp] theorem State.setTx_freeCount (s : State) (v : Transmitter) : (s.setTx v).freeCount = s.freeCount := rfl
@[simp] theorem State.setTx_pending (s : State) (v : Transmitter) : (s.setTx v).pending = s.pending := rfl

@[simp] theorem State.setTap_now (s : State) (v : Tap) : (s.setTap v).now = s.now := rfl
@[simp] theorem State.setTap_inReset (s : State) (v : Tap) : (s.setTap v).inReset = s.inReset := rfl
@[simp] theorem State.setTap_serial (s : State) (v : Tap) : (s.setTap v).serial = s.serial := rfl
@[simp] theorem State.setTap_loader (s : State) (v : Tap) : (s.setTap v).loader = s.loader := rfl
@[simp] theorem State.setTap_rx (s : State) (v : Tap) : (s.setTap v).rx = s.rx := rfl
@[simp] theorem State.setTap_checker (s : State) (v : Tap) : (s.setTap v).checker = s.checker := rfl
@[simp] theorem State.setTap_filter (s : State) (v : Tap) : (s.setTap v).filter = s.filter := rfl
@[simp] theorem State.setTap_ring (s : State) (v : Tap) : (s.setTap v).ring = s.ring := rfl
@[simp] theorem State.setTap_layers (s : State) (v : Tap) : (s.setTap v).layers = s.layers := rfl
@[simp] theorem State.setTap_source (s : State) (v : Tap) : (s.setTap v).source = s.source := rfl
@[simp] theorem State.setTap_merge (s : State) (v : Tap) : (s.setTap v).merge = s.merge := rfl
@[simp] theorem State.setTap_origin (s : State) (v : Tap) : (s.setTap v).origin = s.origin := rfl
@[simp] theorem State.setTap_tx (s : State) (v : Tap) : (s.setTap v).tx = s.tx := rfl
@[simp] theorem State.setTap_tap (s : State) (v : Tap) : (s.setTap v).tap = v := rfl
@[simp] theorem State.setTap_bulletin (s : State) (v : Tap) : (s.setTap v).bulletin = s.bulletin := rfl
@[simp] theorem State.setTap_pins (s : State) (v : Tap) : (s.setTap v).pins = s.pins := rfl
@[simp] theorem State.setTap_freeCount (s : State) (v : Tap) : (s.setTap v).freeCount = s.freeCount := rfl
@[simp] theorem State.setTap_pending (s : State) (v : Tap) : (s.setTap v).pending = s.pending := rfl

@[simp] theorem State.setBulletin_now (s : State) (v : BulletinUnit) : (s.setBulletin v).now = s.now := rfl
@[simp] theorem State.setBulletin_inReset (s : State) (v : BulletinUnit) : (s.setBulletin v).inReset = s.inReset := rfl
@[simp] theorem State.setBulletin_serial (s : State) (v : BulletinUnit) : (s.setBulletin v).serial = s.serial := rfl
@[simp] theorem State.setBulletin_loader (s : State) (v : BulletinUnit) : (s.setBulletin v).loader = s.loader := rfl
@[simp] theorem State.setBulletin_rx (s : State) (v : BulletinUnit) : (s.setBulletin v).rx = s.rx := rfl
@[simp] theorem State.setBulletin_checker (s : State) (v : BulletinUnit) : (s.setBulletin v).checker = s.checker := rfl
@[simp] theorem State.setBulletin_filter (s : State) (v : BulletinUnit) : (s.setBulletin v).filter = s.filter := rfl
@[simp] theorem State.setBulletin_ring (s : State) (v : BulletinUnit) : (s.setBulletin v).ring = s.ring := rfl
@[simp] theorem State.setBulletin_layers (s : State) (v : BulletinUnit) : (s.setBulletin v).layers = s.layers := rfl
@[simp] theorem State.setBulletin_source (s : State) (v : BulletinUnit) : (s.setBulletin v).source = s.source := rfl
@[simp] theorem State.setBulletin_merge (s : State) (v : BulletinUnit) : (s.setBulletin v).merge = s.merge := rfl
@[simp] theorem State.setBulletin_origin (s : State) (v : BulletinUnit) : (s.setBulletin v).origin = s.origin := rfl
@[simp] theorem State.setBulletin_tx (s : State) (v : BulletinUnit) : (s.setBulletin v).tx = s.tx := rfl
@[simp] theorem State.setBulletin_tap (s : State) (v : BulletinUnit) : (s.setBulletin v).tap = s.tap := rfl
@[simp] theorem State.setBulletin_bulletin (s : State) (v : BulletinUnit) : (s.setBulletin v).bulletin = v := rfl
@[simp] theorem State.setBulletin_pins (s : State) (v : BulletinUnit) : (s.setBulletin v).pins = s.pins := rfl
@[simp] theorem State.setBulletin_freeCount (s : State) (v : BulletinUnit) : (s.setBulletin v).freeCount = s.freeCount := rfl
@[simp] theorem State.setBulletin_pending (s : State) (v : BulletinUnit) : (s.setBulletin v).pending = s.pending := rfl

@[simp] theorem State.setPins_now (s : State) (v : Pins) : (s.setPins v).now = s.now := rfl
@[simp] theorem State.setPins_inReset (s : State) (v : Pins) : (s.setPins v).inReset = s.inReset := rfl
@[simp] theorem State.setPins_serial (s : State) (v : Pins) : (s.setPins v).serial = s.serial := rfl
@[simp] theorem State.setPins_loader (s : State) (v : Pins) : (s.setPins v).loader = s.loader := rfl
@[simp] theorem State.setPins_rx (s : State) (v : Pins) : (s.setPins v).rx = s.rx := rfl
@[simp] theorem State.setPins_checker (s : State) (v : Pins) : (s.setPins v).checker = s.checker := rfl
@[simp] theorem State.setPins_filter (s : State) (v : Pins) : (s.setPins v).filter = s.filter := rfl
@[simp] theorem State.setPins_ring (s : State) (v : Pins) : (s.setPins v).ring = s.ring := rfl
@[simp] theorem State.setPins_layers (s : State) (v : Pins) : (s.setPins v).layers = s.layers := rfl
@[simp] theorem State.setPins_source (s : State) (v : Pins) : (s.setPins v).source = s.source := rfl
@[simp] theorem State.setPins_merge (s : State) (v : Pins) : (s.setPins v).merge = s.merge := rfl
@[simp] theorem State.setPins_origin (s : State) (v : Pins) : (s.setPins v).origin = s.origin := rfl
@[simp] theorem State.setPins_tx (s : State) (v : Pins) : (s.setPins v).tx = s.tx := rfl
@[simp] theorem State.setPins_tap (s : State) (v : Pins) : (s.setPins v).tap = s.tap := rfl
@[simp] theorem State.setPins_bulletin (s : State) (v : Pins) : (s.setPins v).bulletin = s.bulletin := rfl
@[simp] theorem State.setPins_pins (s : State) (v : Pins) : (s.setPins v).pins = v := rfl
@[simp] theorem State.setPins_freeCount (s : State) (v : Pins) : (s.setPins v).freeCount = s.freeCount := rfl
@[simp] theorem State.setPins_pending (s : State) (v : Pins) : (s.setPins v).pending = s.pending := rfl

@[simp] theorem State.setFreeCount_now (s : State) (v : Nat) : (s.setFreeCount v).now = s.now := rfl
@[simp] theorem State.setFreeCount_inReset (s : State) (v : Nat) : (s.setFreeCount v).inReset = s.inReset := rfl
@[simp] theorem State.setFreeCount_serial (s : State) (v : Nat) : (s.setFreeCount v).serial = s.serial := rfl
@[simp] theorem State.setFreeCount_loader (s : State) (v : Nat) : (s.setFreeCount v).loader = s.loader := rfl
@[simp] theorem State.setFreeCount_rx (s : State) (v : Nat) : (s.setFreeCount v).rx = s.rx := rfl
@[simp] theorem State.setFreeCount_checker (s : State) (v : Nat) : (s.setFreeCount v).checker = s.checker := rfl
@[simp] theorem State.setFreeCount_filter (s : State) (v : Nat) : (s.setFreeCount v).filter = s.filter := rfl
@[simp] theorem State.setFreeCount_ring (s : State) (v : Nat) : (s.setFreeCount v).ring = s.ring := rfl
@[simp] theorem State.setFreeCount_layers (s : State) (v : Nat) : (s.setFreeCount v).layers = s.layers := rfl
@[simp] theorem State.setFreeCount_source (s : State) (v : Nat) : (s.setFreeCount v).source = s.source := rfl
@[simp] theorem State.setFreeCount_merge (s : State) (v : Nat) : (s.setFreeCount v).merge = s.merge := rfl
@[simp] theorem State.setFreeCount_origin (s : State) (v : Nat) : (s.setFreeCount v).origin = s.origin := rfl
@[simp] theorem State.setFreeCount_tx (s : State) (v : Nat) : (s.setFreeCount v).tx = s.tx := rfl
@[simp] theorem State.setFreeCount_tap (s : State) (v : Nat) : (s.setFreeCount v).tap = s.tap := rfl
@[simp] theorem State.setFreeCount_bulletin (s : State) (v : Nat) : (s.setFreeCount v).bulletin = s.bulletin := rfl
@[simp] theorem State.setFreeCount_pins (s : State) (v : Nat) : (s.setFreeCount v).pins = s.pins := rfl
@[simp] theorem State.setFreeCount_freeCount (s : State) (v : Nat) : (s.setFreeCount v).freeCount = v := rfl
@[simp] theorem State.setFreeCount_pending (s : State) (v : Nat) : (s.setFreeCount v).pending = s.pending := rfl

@[simp] theorem State.setPending_now (s : State) (v : List Instr) : (s.setPending v).now = s.now := rfl
@[simp] theorem State.setPending_inReset (s : State) (v : List Instr) : (s.setPending v).inReset = s.inReset := rfl
@[simp] theorem State.setPending_serial (s : State) (v : List Instr) : (s.setPending v).serial = s.serial := rfl
@[simp] theorem State.setPending_loader (s : State) (v : List Instr) : (s.setPending v).loader = s.loader := rfl
@[simp] theorem State.setPending_rx (s : State) (v : List Instr) : (s.setPending v).rx = s.rx := rfl
@[simp] theorem State.setPending_checker (s : State) (v : List Instr) : (s.setPending v).checker = s.checker := rfl
@[simp] theorem State.setPending_filter (s : State) (v : List Instr) : (s.setPending v).filter = s.filter := rfl
@[simp] theorem State.setPending_ring (s : State) (v : List Instr) : (s.setPending v).ring = s.ring := rfl
@[simp] theorem State.setPending_layers (s : State) (v : List Instr) : (s.setPending v).layers = s.layers := rfl
@[simp] theorem State.setPending_source (s : State) (v : List Instr) : (s.setPending v).source = s.source := rfl
@[simp] theorem State.setPending_merge (s : State) (v : List Instr) : (s.setPending v).merge = s.merge := rfl
@[simp] theorem State.setPending_origin (s : State) (v : List Instr) : (s.setPending v).origin = s.origin := rfl
@[simp] theorem State.setPending_tx (s : State) (v : List Instr) : (s.setPending v).tx = s.tx := rfl
@[simp] theorem State.setPending_tap (s : State) (v : List Instr) : (s.setPending v).tap = s.tap := rfl
@[simp] theorem State.setPending_bulletin (s : State) (v : List Instr) : (s.setPending v).bulletin = s.bulletin := rfl
@[simp] theorem State.setPending_pins (s : State) (v : List Instr) : (s.setPending v).pins = s.pins := rfl
@[simp] theorem State.setPending_freeCount (s : State) (v : List Instr) : (s.setPending v).freeCount = s.freeCount := rfl
@[simp] theorem State.setPending_pending (s : State) (v : List Instr) : (s.setPending v).pending = v := rfl

end Sys2Proof.Machine
end

