-- ==== Sys2Proof/Laws/Ops.lean ====
section
/-! SUPPORT. What each shared operation can do, said once: which blocks it changes, and the bound it keeps. -/
namespace Sys2Proof.Machine

/-! ## Counters and refusals -/

theorem satAdd_toNat {w : Nat} (c : BitVec w) (k : Nat) : (satAdd c k).toNat = min (2 ^ w - 1) (c.toNat + k) := by
  have : 0 < 2 ^ w := Nat.two_pow_pos w
  simp only [satAdd, BitVec.toNat_ofNat]
  exact Nat.mod_eq_of_lt (by omega)

@[simp] theorem satAdd_zero {w : Nat} (c : BitVec w) : satAdd c 0 = c := by
  apply BitVec.eq_of_toNat_eq
  have := c.isLt
  rw [satAdd_toNat]; omega

theorem satInc_toNat {w : Nat} (c : BitVec w) : (satInc c).toNat = min (2 ^ w - 1) (c.toNat + 1) := satAdd_toNat c 1

theorem State.refuse_eq (s : State) (r : Reason) (n : Nat) :
    s.refuse r n =
      s.setSource
        { s.source with refused := satAdd s.source.refused n
                        lastReason := if n = 0 then s.source.lastReason else r } := by
  unfold State.refuse
  split
  · subst_vars; simp [State.setSource]
  · simp

/-! ## Four -/

@[simp] theorem Four.get_set_same {α : Type} (f : Four α) (i : Fin 4) (v : α) : (f.set i v).get i = v := by
  match i with
  | 0 => rfl
  | 1 => rfl
  | 2 => rfl
  | 3 => rfl

theorem Four.get_set_other {α : Type} (f : Four α) (i j : Fin 4) (v : α) (h : j ≠ i) :
    (f.set i v).get j = f.get j := by
  match i, j with
  | 0, 0 => exact absurd rfl h
  | 0, 1 => rfl
  | 0, 2 => rfl
  | 0, 3 => rfl
  | 1, 0 => rfl
  | 1, 1 => exact absurd rfl h
  | 1, 2 => rfl
  | 1, 3 => rfl
  | 2, 0 => rfl
  | 2, 1 => rfl
  | 2, 2 => exact absurd rfl h
  | 2, 3 => rfl
  | 3, 0 => rfl
  | 3, 1 => rfl
  | 3, 2 => rfl
  | 3, 3 => exact absurd rfl h

@[simp] theorem Four.get_map {α β : Type} (g : α → β) (f : Four α) (i : Fin 4) : (f.map g).get i = g (f.get i) := by
  match i with
  | 0 => rfl
  | 1 => rfl
  | 2 => rfl
  | 3 => rfl

@[simp] theorem Four.get_all {α : Type} (v : α) (i : Fin 4) : (Four.all v).get i = v := by
  match i with
  | 0 => rfl
  | 1 => rfl
  | 2 => rfl
  | 3 => rfl

/-! ## Operations that change the source port alone -/

theorem State.refuse_source (s : State) (r : Reason) (n : Nat) : ∃ v, s.refuse r n = s.setSource v :=
  ⟨_, s.refuse_eq r n⟩

theorem State.release_eq (s : State) (p : Slot → Bool) :
    ∃ n, s.release p =
      (s.setSource { s.source with stores := s.source.stores.map (releaseOf p) }).refuse .unused n :=
  ⟨_, rfl⟩

theorem State.release_source (s : State) (p : Slot → Bool) :
    ∃ v, s.release p = s.setSource v ∧ v.stores = s.source.stores.map (releaseOf p) ∧
      v.mergeLine = s.source.mergeLine ∧ v.lastMissed = s.source.lastMissed ∧ v.missed = s.source.missed ∧
      v.cues = s.source.cues ∧ v.cueOut = s.source.cueOut := by
  obtain ⟨n, h⟩ := s.release_eq p
  rw [h, State.refuse_eq]
  exact ⟨_, rfl, rfl, rfl, rfl, rfl, rfl, rfl⟩

theorem State.lineBegun_source (s : State) (y : Nat) :
    ∃ v, s.lineBegun y = s.setSource v ∧ v.mergeLine = some y ∧
      v.stores = s.source.stores.map (releaseOf (fun l => decide (l.line < y))) ∧
      v.lastMissed = s.source.lastMissed ∧ v.missed = s.source.missed ∧ v.cues = s.source.cues ∧
      v.cueOut = s.source.cueOut := by
  obtain ⟨v, h, hs, hm, hl, hn, hc, ho⟩ :=
    (s.setSource { s.source with mergeLine := some y }).release_source (fun l => decide (l.line < y))
  exact ⟨v, h, hm, hs, hl, hn, hc, ho⟩

theorem State.lineEnded_source (s : State) (y : Nat) :
    ∃ v, s.lineEnded y = s.setSource v ∧ v.mergeLine = s.source.mergeLine ∧
      v.stores = s.source.stores.map (releaseOf (fun l => l.line == y)) ∧
      v.lastMissed = s.source.lastMissed ∧ v.missed = s.source.missed ∧ v.cues = s.source.cues ∧
      v.cueOut = s.source.cueOut := by
  obtain ⟨v, h, hs, hm, hl, hn, hc, ho⟩ := s.release_source (fun l => l.line == y)
  exact ⟨v, h, hm, hs, hl, hn, hc, ho⟩

theorem State.issueCue_source (s : State) (y : Nat) :
    ∃ cues, s.issueCue y = s.setSource { s.source with cues := cues } ∧
      (s.source.cues.length ≤ 8 → cues.length ≤ 8) := by
  unfold State.issueCue
  split
  · exact ⟨_, rfl, fun _ => by simp; omega⟩
  · exact ⟨s.source.cues, rfl, id⟩

theorem State.lineStartCue_source (s : State) (y : Nat) :
    ∃ cues, s.lineStartCue y = s.setSource { s.source with cues := cues } ∧
      (s.source.cues.length ≤ 8 → cues.length ≤ 8) := by
  unfold State.lineStartCue
  split
  · exact s.issueCue_source _
  · exact ⟨s.source.cues, rfl, id⟩

theorem State.issueCues_source (l : List Nat) (s : State) :
    ∃ cues, l.foldl State.issueCue s = s.setSource { s.source with cues := cues } ∧
      (s.source.cues.length ≤ 8 → cues.length ≤ 8) := by
  induction l generalizing s with
  | nil => exact ⟨s.source.cues, rfl, id⟩
  | cons y ys ih =>
    obtain ⟨c1, h1, b1⟩ := s.issueCue_source y
    obtain ⟨c2, h2, b2⟩ := ih (s.issueCue y)
    refine ⟨c2, ?_, fun hb => b2 ?_⟩
    · rw [List.foldl_cons, h2, h1]; rfl
    · rw [h1]; exact b1 hb

theorem State.sourceAtMark_source (s : State) :
    ∃ v, s.sourceAtMark = s.setSource v ∧ v.mergeLine = none ∧ v.lastMissed = Four.all none ∧
      v.stores = s.source.stores.map (releaseOf (fun _ => true)) ∧ v.missed = s.source.missed ∧
      v.cueOut = s.source.cueOut ∧ (s.source.cues.length ≤ 8 → v.cues.length ≤ 8) := by
  obtain ⟨v, h, hs, _, _, hn, hc, ho⟩ := s.release_source (fun _ => true)
  obtain ⟨cues, hq, hb⟩ :=
    ((s.release (fun _ => true)).setSource
      { (s.release (fun _ => true)).source with mergeLine := none, lastMissed := Four.all none }).issueCues_source
      (List.range ((s.release (fun _ => true)).lead))
  refine ⟨{ v with mergeLine := none, lastMissed := Four.all none, cues := cues }, ?_, rfl, rfl, hs, hn, ho, ?_⟩
  · show ((s.release (fun _ => true)).setSource _).frameCues = _
    rw [h] at hq ⊢
    exact hq
  · intro h8; apply hb; rw [h]; simpa [hc] using h8

/-- A FRAME mark leaves no slot in any store (R52). -/
theorem releaseOf_true (store : List Slot) : releaseOf (fun _ => true) store = [] := by
  simp [releaseOf]

theorem State.underrun_source (s : State) (i : Fin 4) (y : Nat) :
    ∃ lm n, s.underrun i y = s.setSource { s.source with lastMissed := lm, missed := n } := by
  unfold State.underrun
  split
  · exact ⟨s.source.lastMissed, s.source.missed, rfl⟩
  · exact ⟨_, _, rfl⟩

/-- A read or underrun changes read flags, last missed lines and the missed lines counter, nothing else: every store
keeps its lines and its pixels (R50, R55). -/
theorem State.readStore_source (s : State) (span y : Nat) (i : Fin 4) :
    ∃ st lm n, s.readStore span y i = s.setSource { s.source with stores := st, lastMissed := lm, missed := n } ∧
      ∀ j, st.get j = s.source.stores.get j ∨ st.get j = markRead y (s.source.stores.get j) := by
  unfold State.readStore
  split
  · split
    · refine ⟨_, s.source.lastMissed, s.source.missed, rfl, fun j => ?_⟩
      by_cases hj : j = i
      · subst hj; right; simp
      · left; exact Four.get_set_other _ _ _ _ hj
    · obtain ⟨lm, n, h⟩ := s.underrun_source i y
      exact ⟨s.source.stores, lm, n, h, fun j => Or.inl rfl⟩
  · exact ⟨s.source.stores, s.source.lastMissed, s.source.missed, rfl, fun j => Or.inl rfl⟩

@[simp] theorem markRead_lines (y : Nat) (store : List Slot) : (markRead y store).map Slot.line = store.map Slot.line := by
  induction store with
  | nil => rfl
  | cons a l ih =>
    simp only [markRead, List.map_cons, List.cons.injEq] at ih ⊢
    exact ⟨by split <;> rfl, ih⟩

theorem State.readStores_source (s : State) (span y : Nat) :
    ∃ st lm n, s.readStores span y = s.setSource { s.source with stores := st, lastMissed := lm, missed := n } ∧
      ∀ j, (st.get j).map Slot.line = (s.source.stores.get j).map Slot.line := by
  obtain ⟨s1, l1, n1, h1, k1⟩ := s.readStore_source span y 0
  obtain ⟨s2, l2, n2, h2, k2⟩ := (s.readStore span y 0).readStore_source span y 1
  obtain ⟨s3, l3, n3, h3, k3⟩ := ((s.readStore span y 0).readStore span y 1).readStore_source span y 2
  obtain ⟨s4, l4, n4, h4, k4⟩ :=
    (((s.readStore span y 0).readStore span y 1).readStore span y 2).readStore_source span y 3
  have e : ∀ (a b : List Slot), (a = b ∨ a = markRead y b) → a.map Slot.line = b.map Slot.line := by
    rintro a b (rfl | rfl) <;> simp
  have f1 : (s.readStore span y 0).source.stores = s1 := by rw [h1]; rfl
  have f2 : ((s.readStore span y 0).readStore span y 1).source.stores = s2 := by rw [h2]; rfl
  have f3 : (((s.readStore span y 0).readStore span y 1).readStore span y 2).source.stores = s3 := by rw [h3]; rfl
  rw [f1] at k2
  rw [f2] at k3
  rw [f3] at k4
  refine ⟨s4, l4, n4, ?_, fun j => ?_⟩
  · unfold State.readStores; rw [h4, h3, h2, h1]; rfl
  · exact (e _ _ (k4 j)).trans ((e _ _ (k3 j)).trans ((e _ _ (k2 j)).trans (e _ _ (k1 j))))

/-! ## The line store law (R53) -/

theorem StoreLaw.nil (m : Option Nat) : StoreLaw m [] := by
  refine ⟨by simp, by simp, ?_⟩
  intro l hl
  simp at hl

/-- The law looks only at the lines a store holds. -/
theorem StoreLaw.of_lines {m : Option Nat} {a b : List Slot} (h : a.map Slot.line = b.map Slot.line)
    (hb : StoreLaw m b) : StoreLaw m a := by
  obtain ⟨h1, h2, h3⟩ := hb
  refine ⟨by rw [← List.length_map (as := a) Slot.line, h, List.length_map]; exact h1, h ▸ h2, fun l hl k hk => ?_⟩
  have : l.line ∈ b.map Slot.line := h ▸ List.mem_map_of_mem hl
  obtain ⟨l', hl', e⟩ := List.mem_map.1 this
  rw [← e]; exact h3 l' hl' k hk

/-- A release keeps the law, for the old merge line and for a new one that every kept slot reaches. -/
theorem StoreLaw.release {m m' : Option Nat} {store : List Slot} (p : Slot → Bool) (h : StoreLaw m store)
    (hm : ∀ l ∈ releaseOf p store, ∀ k, m' = some k → k ≤ l.line) : StoreLaw m' (releaseOf p store) := by
  obtain ⟨h1, h2, _⟩ := h
  refine ⟨Nat.le_trans (List.length_filter_le _ _) h1, ?_, hm⟩
  exact h2.sublist (List.filter_sublist.map _)

/-- An accepted LINE record keeps the law (R43, R47). -/
theorem StoreLaw.store {m : Option Nat} {store : List Slot} (l : Slot) (h : StoreLaw m store)
    (room : store.length ≠ 4) (fresh : ∀ t ∈ store, t.line ≠ l.line) (late : ∀ k, m = some k → k < l.line) :
    StoreLaw m (store ++ [l]) := by
  obtain ⟨h1, h2, h3⟩ := h
  refine ⟨by simp; omega, ?_, ?_⟩
  · rw [List.map_append, List.nodup_append]
    refine ⟨h2, by simp, ?_⟩
    intro a ha b hb
    obtain ⟨t, ht, rfl⟩ := List.mem_map.1 ha
    simp only [List.map_cons, List.map_nil, List.mem_singleton] at hb
    subst hb; exact fresh t ht
  · intro t ht k hk
    rcases List.mem_append.1 ht with ht | ht
    · exact h3 t ht k hk
    · rw [List.mem_singleton] at ht; subst ht; exact Nat.le_of_lt (late k hk)

/-! ## The tap queue (R163, R164) -/

/-- A record offered keeps the law of the tap queue. -/
theorem Tap.offer_law (t : Tap) (r : TapRecord) (h : t.queue.length ≤ 16) (hd : dataRecords t.queue ≤ 14) :
    (t.offer r).queue.length ≤ 16 ∧ dataRecords (t.offer r).queue ≤ 14 := by
  have hq : dataRecords t.queue ≤ t.queue.length := List.length_filter_le _ _
  have happ : dataRecords (t.queue ++ [r]) = dataRecords t.queue + (if r.isControl then 0 else 1) := by
    unfold dataRecords
    rw [List.filter_append, List.length_append]
    cases hc : r.isControl <;> simp [hc]
  by_cases hlt : t.queue.length < (if r.isControl then 16 else 14)
  · rw [Tap.offer, if_pos hlt]
    refine ⟨?_, ?_⟩
    · simp only [List.length_append, List.length_singleton]
      cases hc : r.isControl <;> rw [hc] at hlt <;> simp only [if_true, if_false, Bool.false_eq_true] at hlt <;> omega
    · show dataRecords (t.queue ++ [r]) ≤ 14
      rw [happ]
      cases hc : r.isControl <;> rw [hc] at hlt <;>
        simp only [if_true, if_false, Bool.false_eq_true] at hlt ⊢ <;> omega
  · rw [Tap.offer, if_neg hlt]; exact ⟨h, hd⟩

/-- An offer changes the queue, the two drop counters and the control record lost flag alone. -/
theorem Tap.offer_frame (t : Tap) (r : TapRecord) :
    (t.offer r).openFrame = t.openFrame ∧ (t.offer r).lastClosed = t.lastClosed ∧ (t.offer r).next = t.next ∧
      (t.offer r).out = t.out := by
  unfold Tap.offer
  by_cases hlt : t.queue.length < (if r.isControl then 16 else 14)
  · rw [if_pos hlt]; exact ⟨rfl, rfl, rfl, rfl⟩
  · rw [if_neg hlt]; exact ⟨rfl, rfl, rfl, rfl⟩

/-- The queue law of a tap on its own. -/
def Tap.Law (t : Tap) : Prop := t.queue.length ≤ 16 ∧ dataRecords t.queue ≤ 14

theorem Tap.Law.offer {t : Tap} (h : t.Law) (r : TapRecord) : (t.offer r).Law := t.offer_law r h.1 h.2

theorem Tap.Law.gapToEnd {t : Tap} (h : t.Law) (f : Format) : (t.gapToEnd f).Law := by
  unfold Tap.gapToEnd
  split
  · exact h
  · split
    · exact h.offer _
    · exact h

theorem Tap.Law.endFrame {t : Tap} (h : t.Law) (b : Bool) (tr : Trailer) : (t.endFrame b tr).Law := by
  unfold Tap.endFrame
  split
  · exact h
  · exact h.offer _

theorem Tap.Law.openNew {t : Tap} (h : t.Law) (f : Half) (e : Byte) (b : Bool) : (t.openNew f e b).Law := h.offer _

/-- A RESULT changes the tap unit alone, and keeps its law (R71, R166). -/
theorem State.resultInFrame_tap (s : State) (d : ResultData) :
    ∃ t, s.resultInFrame d = s.setTap t ∧ (s.tap.Law → t.Law) := by
  unfold State.resultInFrame
  simp only
  split
  · exact ⟨s.tap, rfl, id⟩
  · have hlaw : s.tap.Law →
        Tap.Law { (if s.tap.next.index s.format < d.line * s.format.spans + d.span then
            s.tap.offer (.gap d.frame s.tap.next.line s.tap.next.span
              (d.line * s.format.spans + d.span - s.tap.next.index s.format))
          else s.tap).offer (.span d) with
          next := posOf s.format (d.line * s.format.spans + d.span + 1) } := by
      intro h
      split
      · exact (h.offer _).offer _
      · exact h.offer _
    split
    · exact ⟨_, rfl, fun h => (hlaw h).endFrame _ _⟩
    · exact ⟨_, rfl, hlaw⟩

theorem State.openImplicit_tap (s : State) (f : Half) :
    ∃ t, s.openImplicit f = s.setTap t ∧ (s.tap.Law → t.Law) :=
  ⟨_, rfl, fun h => ((h.gapToEnd _).endFrame _ _).openNew _ _ _⟩

theorem State.tapResult_tap (s : State) (d : ResultData) :
    ∃ t, s.tapResult d = s.setTap t ∧ (s.tap.Law → t.Law) := by
  unfold State.tapResult
  split
  · exact ⟨s.tap, rfl, id⟩
  · split
    · exact s.resultInFrame_tap d
    · split
      · exact ⟨s.tap, rfl, id⟩
      · obtain ⟨t1, h1, l1⟩ := s.openImplicit_tap d.frame
        obtain ⟨t2, h2, l2⟩ := (s.openImplicit d.frame).resultInFrame_tap d
        refine ⟨t2, by rw [h2, h1]; rfl, fun h => l2 ?_⟩
        rw [h1]; exact l1 h

theorem State.tapAtMark_tap (s b : State) (f : Half) :
    ∃ t, s.tapAtMark b f = s.setTap t ∧ (s.tap.Law → t.Law) :=
  ⟨_, rfl, fun h => Tap.Law.openNew (t := { (s.tap.gapToEnd s.format).endFrame true (b.trailer b.ring.role) with
      dropsFrame := 0 }) ((h.gapToEnd _).endFrame _ _) _ _ _⟩

theorem State.roleAtHalt_free (s : State) : ∃ r n, s.roleAtHalt = (r, s.setFreeCount n) := by
  unfold State.roleAtHalt
  split
  · exact ⟨_, _, rfl⟩
  · exact ⟨.none, s.freeCount, rfl⟩

theorem State.tapAtHalt_tap (s : State) (h : HaltRecord) :
    ∃ t n, s.tapAtHalt h = (s.setFreeCount n).setTap t ∧ (s.tap.Law → t.Law) ∧ t.openFrame = none ∧
      t.lastClosed = none ∧ t.dropsFrame = 0 := by
  obtain ⟨r, n, e⟩ := s.roleAtHalt_free
  have hu : s.tapAtHalt h = (s.setFreeCount n).setTap
      { { s.tap.endFrame true ((s.setFreeCount n).trailer r) with openFrame := none, lastClosed := none }.offer
          (.haltNotice h) with dropsFrame := 0 } := by
    unfold State.tapAtHalt; rw [e]; rfl
  refine ⟨_, n, hu, fun hl => ?_, ?_, ?_, rfl⟩
  · have h1 : (s.tap.endFrame true ((s.setFreeCount n).trailer r)).Law := hl.endFrame _ _
    exact Tap.Law.offer (t := { s.tap.endFrame true ((s.setFreeCount n).trailer r) with
      openFrame := none, lastClosed := none }) h1 _
  · exact (Tap.offer_frame _ _).1
  · exact (Tap.offer_frame _ _).2.1

/-! ## Queues of the transmitter -/

theorem State.forward_tx (s : State) (c : CellBytes) :
    ∃ fw n, s.forward c = s.setTx { s.tx with forward := fw, overflow := n } ∧
      (s.tx.forward.length ≤ 4 → fw.length ≤ 4) := by
  unfold State.forward
  split
  · exact ⟨_, s.tx.overflow, rfl, fun _ => by simp; omega⟩
  · exact ⟨s.tx.forward, _, rfl, id⟩

/-- A cell placed keeps one cell of each kind (R108). -/
theorem placeIn_kinds (c : LaunchCell) (q : List LaunchCell) (h : (q.map LaunchCell.kind).Nodup) :
    ((placeIn c q).map LaunchCell.kind).Nodup := by
  unfold placeIn
  split
  · have : (q.map (fun d => if d.kind = c.kind then c else d)).map LaunchCell.kind = q.map LaunchCell.kind := by
      rw [List.map_map]
      apply List.map_congr_left
      intro d _
      simp only [Function.comp]
      split
      · rename_i e; exact e.symm
      · rfl
    rw [this]; exact h
  · rename_i hn
    rw [List.map_append, List.nodup_append]
    refine ⟨h, by simp, ?_⟩
    intro a ha b hb
    obtain ⟨d, hd, rfl⟩ := List.mem_map.1 ha
    simp only [List.map_cons, List.map_nil, List.mem_singleton] at hb
    subst hb
    intro e
    apply hn
    simp only [queuedKind, List.any_eq_true]
    exact ⟨d, hd, by simp [e]⟩

/-- One cell of each kind is at most four cells. -/
theorem launchKinds_length (q : List LaunchCell) (h : (q.map LaunchCell.kind).Nodup) : q.length ≤ 4 := by
  have hs : q.map LaunchCell.kind ⊆ [.roster, .commit, .halt, .bulletin] := by
    intro k _
    cases k <;> simp
  have := (h.subperm hs).length_le
  simpa using this

theorem State.dropRoster_kinds (s : State) (h : (s.tx.launch.map LaunchCell.kind).Nodup) :
    (s.dropRoster.tx.launch.map LaunchCell.kind).Nodup :=
  h.sublist (List.filter_sublist.map _)

/-! ## The outstanding list -/

theorem matchReturn_length (f : Half) (l p : Nat) (cs : List Colour) (es es' : List OutEntry) (n : Nat)
    (h : matchReturn f l p cs es = some (es', n)) : es'.length = es.length := by
  induction es generalizing es' n with
  | nil => simp [matchReturn] at h
  | cons e rest ih =>
    simp only [matchReturn] at h
    split at h
    · cases h; rfl
    · split at h
      · cases h
      · rename_i r m hr
        split at h
        · cases h; simp [ih _ _ hr]
        · cases h; simp [ih _ _ hr]

theorem loseOldest_length (es es' : List OutEntry) (t : Nat) (h : loseOldest es = some (es', t)) :
    es'.length = es.length := by
  induction es generalizing es' t with
  | nil => simp [loseOldest] at h
  | cons e rest ih =>
    simp only [loseOldest] at h
    split at h
    · cases h; rfl
    · split at h
      · cases h
      · rename_i r m hr
        cases h; simp [ih _ _ hr]

theorem OriginEngine.slotLine_lines (o : OriginEngine) (k : Nat) (h : o.lines.length ≤ 2) :
    (o.slotLine k).lines.length ≤ 2 := by
  unfold OriginEngine.slotLine
  split
  · exact h
  · split
    · simp; omega
    · exact h

/-! ## Layers -/

theorem State.layersAtMark_shape (s : State) (first : Bool) :
    ∃ l n, s.layersAtMark first = (s.setLayers l).refuse .badWindow n ∧
      ∀ i, (l.shadow.get i, l.active.get i) =
        ((layerAtMark s.format first (s.layers.shadow.get i) (s.layers.active.get i)).1,
          (layerAtMark s.format first (s.layers.shadow.get i) (s.layers.active.get i)).2.1) := by
  refine ⟨_, _, rfl, fun i => ?_⟩
  match i with
  | 0 => rfl
  | 1 => rfl
  | 2 => rfl
  | 3 => rfl

/-- A fade step stays between the cover and its target (R35). -/
theorem ActiveEntry.fade_between (a : ActiveEntry) :
    a.fade.setup = a.setup ∧ min a.current a.setup.target ≤ a.fade.current ∧
      a.fade.current ≤ max a.current a.setup.target := by
  unfold ActiveEntry.fade
  split
  · exact ⟨rfl, by omega, by omega⟩
  · split
    · refine ⟨rfl, ?_, ?_⟩ <;> simp only <;> omega
    · split
      · refine ⟨rfl, ?_, ?_⟩ <;> simp only <;> omega
      · exact ⟨rfl, by omega, by omega⟩

/-! ## Bulletins -/

theorem State.bulletinDrops_free (s : State) (a b : Half) :
    ∃ d n, s.bulletinDrops a b = (d, s.setFreeCount n) ∧ (d = a ∨ d = b) := by
  unfold State.bulletinDrops
  split
  · exact ⟨b, s.freeCount, rfl, Or.inr rfl⟩
  · refine ⟨_, _, rfl, ?_⟩
    by_cases h : (s.freeChoice).1 = true
    · right; exact if_pos h
    · left; exact if_neg h

/-- The bulletin unit's work at a FRAME mark changes the bulletin unit, the local launch queue and the count of free
choices (R172). -/
theorem State.bulletinAtMark_shape (s b : State) (f : Half) :
    ∃ bu q n, s.bulletinAtMark b f = ((s.setFreeCount n).setTx { s.tx with launch := q }).setBulletin bu ∧
      ((s.tx.launch.map LaunchCell.kind).Nodup → (q.map LaunchCell.kind).Nodup) := by
  unfold State.bulletinAtMark
  cases s.bulletin.outstanding with
  | none =>
    obtain ⟨d, n, hd, _⟩ := s.bulletinDrops_free b.tap.drops s.tap.drops
    simp only [hd]
    by_cases hq : queuedKind .bulletin (s.setFreeCount n).tx.launch = true
    · rw [if_pos hq]; exact ⟨_, _, n, rfl, placeIn_kinds _ _⟩
    · rw [if_neg hq]; exact ⟨_, _, n, rfl, placeIn_kinds _ _⟩
  | some g =>
    obtain ⟨d, n, hd, _⟩ :=
      (s.setBulletin { s.bulletin with lost := satInc s.bulletin.lost, outstanding := none }).bulletinDrops_free
        b.tap.drops s.tap.drops
    simp only [State.setBulletin_tap, hd]
    by_cases hq : queuedKind .bulletin
        ((s.setBulletin { s.bulletin with lost := satInc s.bulletin.lost, outstanding := none }).setFreeCount
          n).tx.launch = true
    · rw [if_pos hq]; exact ⟨_, _, n, rfl, placeIn_kinds _ _⟩
    · rw [if_neg hq]; exact ⟨_, _, n, rfl, placeIn_kinds _ _⟩

/-- A FRAME mark changes nothing of the transmitter but the local launch queue (R63, R108). -/
theorem State.takeFrameMark_tx (s : State) (frame : Half) :
    ∃ q, (s.takeFrameMark frame).tx = { s.tx with launch := q } := by
  obtain ⟨v, hv, _⟩ := (s.setMerge { s.merge with lastTaken := some frame }).sourceAtMark_source
  obtain ⟨l, n, hl, _⟩ := (s.setMerge { s.merge with lastTaken := some frame }).sourceAtMark.layersAtMark_shape
    s.merge.lastTaken.isNone
  rw [hv] at hl
  have ring : ∀ u : State, u.ringAtMark.tx = u.tx := fun u => by unfold State.ringAtMark; split <;> rfl
  have refused : ∀ u : State, (u.refuse .badWindow n).tx = u.tx := fun u => by unfold State.refuse; split <;> rfl
  unfold State.takeFrameMark
  simp only [hv, hl]
  generalize hu : (State.refuse _ .badWindow n).ringAtMark = u
  have kept : u.tx = s.tx := by rw [← hu, ring, refused]; rfl
  obtain ⟨t, ht, _⟩ := u.tapAtMark_tap s frame
  obtain ⟨bu, q, m, hb, _⟩ := (u.tapAtMark s frame).bulletinAtMark_shape s frame
  exact ⟨q, by rw [hb, ht]; exact congrArg (fun x : Transmitter => { x with launch := q }) kept⟩

end Sys2Proof.Machine
end

