-- ==== Sys2Proof/Laws/Shapes.lean ====
section
/-! SUPPORT. What the shared operations of rings, halts, probes and FRAME marks do, in the words the statements use. -/
namespace Sys2Proof.Machine

/-! ## Arrival -/

theorem State.live_running {s : State} (h : s.inReset = false) (f : State → State) : s.live f = f s := by
  unfold State.live
  rw [h]; rfl

theorem State.arrive_hears {s : State} (h : s.Hears) (f : State → State) : s.arrive f = f s.heard := by
  unfold State.arrive
  rw [State.live_running h.1, if_pos h.2]
  rfl

theorem State.forward_forwards (s : State) (c : CellBytes) : s.Forwards c (s.forward c) := by
  constructor <;> intro h
  · exact if_pos h
  · exact if_neg (Nat.not_lt.2 h)

/-! ## The local launch queue and ROLL -/

theorem placeIn_placed (c : LaunchCell) (q : List LaunchCell) : Placed c q (placeIn c q) := by
  have same : ∀ l : List LaunchCell, (∀ e ∈ l, e.kind ≠ c.kind) →
      l.map (fun d => if d.kind = c.kind then c else d) = l := by
    intro l hl
    conv_rhs => rw [← List.map_id l]
    exact List.map_congr_left fun a ha => if_neg (hl a ha)
  constructor
  · intro h
    refine if_neg ?_
    simp only [queuedKind, List.any_eq_true, beq_iff_eq, not_exists, not_and]
    exact h
  · rintro pre d post rfl hk hn
    have : queuedKind c.kind (pre ++ d :: post) = true := by simp [queuedKind, hk]
    rw [placeIn, if_pos this, List.map_append, List.map_cons, if_pos hk,
      same pre (fun e he => hn e (List.mem_append_left _ he)),
      same post (fun e he => hn e (List.mem_append_right _ he))]

theorem State.launchRoster_launched (s : State) : s.RosterLaunched s.launchRoster :=
  ⟨_, rfl, placeIn_placed _ _⟩

theorem State.enterRoll_enters (s : State) : s.EntersRoll s.enterRoll := by
  constructor
  · intro h
    have e : s.enterRoll =
        (s.setRing { s.ring with state := .roll, elected := false, noOrigin := false }).launchRoster := if_pos h
    rw [e]
    exact State.launchRoster_launched _
  · intro h
    have e : s.enterRoll = _ := if_neg (by rw [State.eligible] at h; simp [State.eligible, h])
    rw [e]; rfl

/-! ## The form checks of ROSTER and COMMIT -/

theorem goodId_iff (b : Byte) : goodId b = true ↔ 1 ≤ b.toNat ∧ b.toNat ≤ 63 := by
  simp [goodId]

theorem RosterCell.goodForm_iff (r : RosterCell) : r.goodForm = true ↔ RosterForm r := by
  unfold RosterCell.goodForm RosterForm
  cases r.entries with
  | nil => simp
  | cons e l =>
    simp only [Bool.and_eq_true, decide_eq_true_eq, goodId_iff, List.all_eq_true, bne_iff_ne, beq_iff_eq,
      List.head?_cons, Option.some.injEq, exists_eq_left', and_assoc]

theorem CommitCell.goodForm_iff (c : CommitCell) : c.goodForm = true ↔ CommitForm c := by
  unfold CommitCell.goodForm CommitForm
  cases c.entries with
  | nil => simp
  | cons e l =>
    simp only [Bool.and_eq_true, decide_eq_true_eq, goodId_iff, bne_iff_ne, beq_iff_eq, List.head?_cons,
      Option.some.injEq, exists_eq_left', and_assoc]

/-! ## Entry to HALT -/

/-- What a halt entry does to the source port (R61, R57). -/
theorem State.sourceAtHalt_shape (s : State) :
    ∃ n cues begun, s.sourceAtHalt =
        (s.setFreeCount n).setSource
          { s.source with
            stores := ⟨[], [], [], []⟩, mergeLine := none, lastMissed := ⟨none, none, none, none⟩, cues := cues
            cueBegun := begun } ∧
      (s.source.cues = [] → cues = [] ∧ begun = false) ∧
      ∀ c rest, s.source.cues = c :: rest →
        (cues = [c] ∧ begun = true) ∨ (s.source.cueBegun = false ∧ cues = [] ∧ begun = false) := by
  obtain ⟨b, n, e, hb⟩ : ∃ b n, s.cueBegunAtHalt = (b, s.setFreeCount n) ∧
      ((s.source.cues = [] ∧ b = false) ∨ (s.source.cues ≠ [] ∧ (b = true ∨ s.source.cueBegun = false))) := by
    unfold State.cueBegunAtHalt
    split
    · rename_i h
      exact ⟨false, s.freeCount, rfl, Or.inl ⟨h, rfl⟩⟩
    · rename_i h h2
      exact ⟨true, s.freeCount, rfl, Or.inr ⟨by rw [h]; exact List.cons_ne_nil _ _, Or.inl rfl⟩⟩
    · rename_i h h2
      exact ⟨_, _, rfl, Or.inr ⟨by rw [h]; exact List.cons_ne_nil _ _, Or.inr h2⟩⟩
  refine ⟨n, if b then s.source.cues.take 1 else [], b, ?_, ?_, ?_⟩
  · unfold State.sourceAtHalt; rw [e]; rfl
  · intro h
    rcases hb with ⟨_, rfl⟩ | ⟨h2, _⟩
    · exact ⟨rfl, rfl⟩
    · exact absurd h h2
  · intro c rest h
    rw [h]
    rcases hb with ⟨h2, _⟩ | ⟨_, h2⟩
    · rw [h] at h2; cases h2
    · cases b with
      | true => exact Or.inl ⟨rfl, rfl⟩
      | false => exact Or.inr ⟨h2.resolve_left Bool.false_ne_true, rfl, rfl⟩

/-! ## FRAME_END trailers -/

theorem Layers.count_eq (l : Layers) :
    l.count = (List.finRange 4).countP (fun i => (l.active.get i).setup.base != 0) := by
  simp only [Layers.count, Four.toList, ← List.countP_eq_length_filter]
  rfl

theorem Layers.covers_get (l : Layers) (i : Fin 4) : l.covers.get i = (l.active.get i).current := by
  fin_cases i <;> rfl

/-- The trailer of a station whose tap is replaced by `u` (R168). -/
theorem State.trailer_shows (s : State) (u : Tap) (role : Role) :
    s.TrailerShows u role s.ring.lastHalt ((s.setTap u).trailer role) :=
  { frameCounts := ⟨rfl, rfl⟩
    sourceCounts := ⟨rfl, rfl, rfl⟩
    drops := ⟨rfl, rfl, rfl⟩
    layers := ⟨Layers.count_eq _, Layers.covers_get _⟩
    cumulative := ⟨rfl, rfl, rfl, rfl, rfl, rfl⟩
    originCounts := ⟨fun h => by subst h; exact ⟨rfl, rfl⟩, fun h => by
      cases role with
      | origin => exact absurd rfl h
      | member => exact ⟨rfl, rfl⟩
      | none => exact ⟨rfl, rfl⟩⟩
    records := ⟨rfl, rfl⟩ }

/-- Halt entry at the tap (R169): what `roleAtHalt` may answer, and the two cases of the open frame. -/
theorem State.tapAtHalt_shape (s : State) (h : HaltRecord) :
    ∃ t n, s.tapAtHalt h = (s.setFreeCount n).setTap t ∧
      (s.tap.openFrame = none → t = { s.tap.offer (.haltNotice h) with lastClosed := none, dropsFrame := 0 }) ∧
      ∀ o, s.tap.openFrame = some o →
        ∃ role, (role = s.ring.role ∨ role = .none) ∧
          t = { (s.tap.offer (.frameEnd o.frame true (s.trailer role))).offer (.haltNotice h) with
                openFrame := none, lastClosed := none, dropsFrame := 0 } := by
  have drop : ∀ (u : Tap), { { u with openFrame := none, lastClosed := none }.offer (.haltNotice h) with
      dropsFrame := 0 } = { u.offer (.haltNotice h) with openFrame := none, lastClosed := none, dropsFrame := 0 } := by
    intro u
    unfold Tap.offer
    by_cases hl : u.queue.length < 16 <;> simp [TapRecord.isControl, hl]
  obtain ⟨r, n, e, hr⟩ : ∃ r n, s.roleAtHalt = (r, s.setFreeCount n) ∧ (r = s.ring.role ∨ r = .none) := by
    unfold State.roleAtHalt
    split
    · rename_i ho _
      refine ⟨_, _, rfl, ?_⟩
      by_cases hb : (s.freeChoice).1 = true
      · left; rw [ho]; exact if_pos hb
      · right; exact if_neg hb
    · exact ⟨.none, s.freeCount, rfl, Or.inr rfl⟩
  refine ⟨{ { s.tap.endFrame true (s.trailer r) with openFrame := none, lastClosed := none }.offer
    (.haltNotice h) with dropsFrame := 0 }, n, ?_, ?_, ?_⟩
  · unfold State.tapAtHalt; rw [e]; rfl
  · intro ho
    have same : s.tap.endFrame true (s.trailer r) = s.tap := by simp [Tap.endFrame, ho]
    rw [same]
    unfold Tap.offer
    by_cases h1 : s.tap.queue.length < 16 <;> simp [TapRecord.isControl, h1, ho]
  · intro o ho
    refine ⟨r, hr, ?_⟩
    rw [Tap.endFrame, ho]
    dsimp only
    rw [drop]

/-- Entry to HALT, said once (R152, R154). -/
theorem State.enterHalt_entered (s : State) (h : HaltRecord) (cell : CellBytes) :
    s.HaltEntered h cell (s.enterHalt h cell) := by
  obtain ⟨t, n, e1, a1, a2⟩ := (s.setRing (s.ring.recordHalt h)).tapAtHalt_shape h
  obtain ⟨m, cues, begun, e2, b1, b2⟩ := ((s.setRing (s.ring.recordHalt h)).tapAtHalt h).sourceAtHalt_shape
  have shut : ∀ role, s.TrailerShows s.tap role (some h) ((s.setRing (s.ring.recordHalt h)).trailer role) := by
    intro role
    have k := (s.setRing (s.ring.recordHalt h)).trailer_shows s.tap role
    exact ⟨k.1, k.2, k.3, k.4, k.5, k.6, k.7⟩
  unfold State.enterHalt
  dsimp only
  rw [e2, e1]
  rw [e1] at b1 b2
  constructor
  case cues => exact ⟨b1, b2⟩
  case tapShut => exact a1
  case tapOpen =>
    intro o ho
    obtain ⟨role, hr, ht⟩ := a2 o ho
    exact ⟨_, role, hr, shut role, ht⟩
  all_goals
    simp [State.bulletinAtHalt, State.drivePins, Ring.atHalt, Ring.recordHalt, OriginEngine.cleared,
      OriginEngine.reset, Checker.atHalt, State.setRing, State.setTap, State.setSource, State.setBulletin,
      State.setMerge, State.setOrigin, State.setChecker, State.setFilter, State.setPins, State.setTx,
      State.setFreeCount, holdOffPeriods, beaconPeriods, micro]
  rfl

theorem State.raiseHalt_raised (s : State) (cause : HaltCause) (epoch : Byte) :
    s.HaltRaised cause epoch (s.raiseHalt cause epoch) :=
  ⟨_, rfl, rfl, rfl, State.enterHalt_entered _ _ _⟩

/-! ## Frames at the tap -/

/-- An open frame closed truncated (step 1 of R165), with a trailer built from the tap after its GAP. -/
theorem State.frameCut_shape (s : State) {shows : Tap → Trailer → Prop} {tr : Tap → Trailer}
    (h : ∀ u, shows u (tr u)) :
    s.FrameCut shows ((s.tap.gapToEnd s.format).endFrame true (tr (s.tap.gapToEnd s.format))) := by
  constructor
  · intro ho
    simp [Tap.gapToEnd, Tap.endFrame, ho]
  · intro o ho
    have same : (s.tap.gapToEnd s.format).openFrame = some o := by
      unfold Tap.gapToEnd
      rw [ho]
      dsimp only
      split
      · rw [(Tap.offer_frame _ _).1]
        exact ho
      · exact ho
    refine ⟨s.tap.gapToEnd s.format, tr (s.tap.gapToEnd s.format), ?_, ?_, h _, ?_⟩
    · intro hlt
      unfold Tap.gapToEnd
      rw [ho]
      exact if_pos hlt
    · intro hge
      unfold Tap.gapToEnd
      rw [ho]
      exact if_neg (Nat.not_lt.2 hge)
    · unfold Tap.endFrame
      rw [same]

/-- The tap unit at a FRAME mark, said once (R165). -/
theorem State.tapAtMark_marked (s b : State) (frame : Half) (ht : s.tap = b.tap)
    (hc : s.ring.committed = b.ring.committed) : b.TapMarked frame (s.tapAtMark b frame) := by
  have hf : s.format = b.format := by simp [State.format, hc]
  have he : s.epoch = b.epoch := by simp [State.epoch, hc]
  refine ⟨_, b.frameCut_shape (tr := fun _ => b.trailer b.ring.role) fun _ => b.trailer_shows b.tap b.ring.role, ?_⟩
  unfold State.tapAtMark
  rw [hf, he, ht]
  rfl

/-- Steps 3 and 4 of R166, said once. -/
theorem State.resultInFrame_shape (s : State) (d : ResultData) :
    ∃ v, s.resultInFrame d = s.setTap v ∧ s.InFrame d v := by
  unfold State.resultInFrame State.InFrame
  dsimp only
  by_cases h : d.line * s.format.spans + d.span < s.tap.next.index s.format
  · rw [if_pos h]
    exact ⟨s.tap, rfl, fun _ => rfl, fun h2 => absurd h (Nat.not_lt.2 h2)⟩
  · rw [if_neg h]
    obtain ⟨g, same, gap, hg⟩ : ∃ g : Tap,
        (d.line * s.format.spans + d.span = s.tap.next.index s.format → g = s.tap) ∧
        (s.tap.next.index s.format < d.line * s.format.spans + d.span →
          g = s.tap.offer (.gap d.frame s.tap.next.line s.tap.next.span
            (d.line * s.format.spans + d.span - s.tap.next.index s.format))) ∧
        (if s.tap.next.index s.format < d.line * s.format.spans + d.span then
          s.tap.offer (.gap d.frame s.tap.next.line s.tap.next.span
            (d.line * s.format.spans + d.span - s.tap.next.index s.format))
        else s.tap) = g :=
      ⟨_, fun h2 => if_neg (by omega), fun h2 => if_pos h2, rfl⟩
    have opened : g.openFrame = s.tap.openFrame := by
      rw [← hg]
      split
      · exact (Tap.offer_frame _ _).1
      · rfl
    rw [hg]
    split
    · rename_i hl
      refine ⟨_, rfl, fun h2 => absurd h2 h, fun _ => ⟨g, _, same, gap, rfl, fun h2 => absurd hl h2, ?_⟩⟩
      intro _ o ho
      refine ⟨_, s.trailer_shows _ _, ?_⟩
      unfold Tap.endFrame
      simp only [State.setTap, (Tap.offer_frame _ _).1, opened, ho]
      rfl
    · rename_i hl
      exact ⟨_, rfl, fun h2 => absurd h2 h, fun _ => ⟨g, _, same, gap, rfl, fun _ => rfl, fun h2 => absurd h2 hl⟩⟩

/-- A RESULT at the tap, said once (R166). -/
theorem State.tapResult_shape (s : State) (d : ResultData) :
    ∃ v, s.tapResult d = s.setTap v ∧ s.ResultTapped d v := by
  unfold State.tapResult State.ResultTapped
  by_cases h1 : s.format.height ≤ d.line ∨ s.format.spans ≤ d.span
  · rw [if_pos h1]
    exact ⟨s.tap, rfl, fun _ => rfl, fun _ _ => by omega⟩
  · rw [if_neg h1]
    by_cases h2 : (s.tap.openFrame.map OpenFrame.frame) = some d.frame
    · rw [if_pos h2]
      obtain ⟨v, e, hv⟩ := s.resultInFrame_shape d
      exact ⟨v, e, fun h => absurd h h1, fun _ _ => ⟨fun _ => hv, fun h => absurd h2 h, fun h => absurd h2 h⟩⟩
    · rw [if_neg h2]
      by_cases h3 : s.tap.lastClosed = some d.frame
      · rw [if_pos h3]
        exact ⟨s.tap, rfl, fun h => absurd h h1,
          fun _ _ => ⟨fun h => absurd h h2, fun _ _ => rfl, fun _ h => absurd h3 h⟩⟩
      · rw [if_neg h3]
        obtain ⟨v, e, hv⟩ := (s.openImplicit d.frame).resultInFrame_shape d
        exact ⟨v, e, fun h => absurd h h1,
          fun _ _ => ⟨fun h => absurd h h2, fun _ h => absurd h h3,
            fun _ _ => ⟨_, _, s.frameCut_shape fun g => s.trailer_shows g _, rfl, hv⟩⟩⟩

/-! ## Probes -/

theorem byteAt_probeBytes (cell : CellBytes) (i : Nat) (h : i < 24) :
    byteAt (probeBytes cell) i = byteAt cell (5 + i) := by
  simp [byteAt, probeBytes, List.getD, h]

theorem byteMismatches_differing (cell : CellBytes) :
    byteMismatches (probeStart cell) (probeBytes cell) =
      (differing cell).map (fun i =>
        (probeByte ((probeStart cell + i) % 127), byteAt cell (5 + i), (probeStart cell + i) % 127)) := by
  unfold byteMismatches differing
  rw [← List.filterMap_eq_map, List.filterMap_filter]
  apply List.filterMap_congr
  intro i hi
  rw [byteAt_probeBytes _ _ (by simpa using hi)]
  by_cases h : byteAt cell (5 + i) = probeByte ((probeStart cell + i) % 127) <;> simp [h]

/-- The checker after a probe in SYNCED, said once (R120, R121, R123, R128). -/
theorem Checker.checked_after (c : Checker) (q : Nat) (cell : CellBytes) (frame : Option Half) :
    c.checked q (probeStart cell) (probeBytes cell) frame = c.after q cell frame := by
  unfold Checker.checked Checker.after
  rw [byteMismatches_differing]
  by_cases h1 : 126 < probeStart cell
  · simp [h1, sortProbe, probeErrors, errorsOf, Checker.count, Checker.take, probeAdvance]
    cases c.capture <;> cases (differing cell).head? <;> simp
  · by_cases h2 : probeStart cell = (q + 24) % 127
    · rw [← h2]
      cases hd : differing cell with
      | nil =>
        simp [h1, sortProbe, probeErrors, errorsOf, Checker.count, Checker.take, probeAdvance, hd, ← h2]
        cases c.capture <;> simp
      | cons a l =>
        simp [h1, sortProbe, probeErrors, errorsOf, Checker.count, Checker.take, probeAdvance, hd, ← h2]
        cases c.capture <;> simp
    · cases hd : differing cell with
      | nil =>
        simp [h1, sortProbe, probeErrors, errorsOf, Checker.count, Checker.take, probeAdvance, hd, h2]
        cases c.capture <;> simp
      | cons a l =>
        simp [h1, sortProbe, probeErrors, errorsOf, Checker.count, Checker.take, probeAdvance, hd, h2]
        cases c.capture <;> simp

/-! ## FRAME marks -/

theorem satAdd_satAdd {w : Nat} (c : BitVec w) (a b : Nat) : satAdd (satAdd c a) b = satAdd c (a + b) := by
  apply BitVec.eq_of_toNat_eq
  rw [satAdd_toNat, satAdd_toNat, satAdd_toNat]
  omega

/-- Cues issued one after another: those there is room for (R57). -/
theorem State.issueCues_eq (l : List Nat) (s : State) :
    l.foldl State.issueCue s =
      s.setSource
        { s.source with
          cues := s.source.cues ++
            (l.map (fun y => ({ frame := s.merge.lastTaken.getD 0, line := y } : Cue))).take
              (8 - s.source.cues.length) } := by
  induction l generalizing s with
  | nil => simp [State.setSource]
  | cons y ys ih =>
    rw [List.foldl_cons, ih]
    unfold State.issueCue
    split
    · obtain ⟨k, hk⟩ : ∃ k, 8 - s.source.cues.length = k + 1 := ⟨8 - s.source.cues.length - 1, by omega⟩
      have hk' : 8 - (s.source.cues.length + 1) = k := by omega
      simp [State.setSource, hk, hk']
    · have h8 : 8 - s.source.cues.length = 0 := by omega
      simp [State.setSource, h8]

theorem unreadOf_all (stores : Four (List Slot)) :
    unreadOf (fun _ => true) stores.e0 + unreadOf (fun _ => true) stores.e1 + unreadOf (fun _ => true) stores.e2 +
        unreadOf (fun _ => true) stores.e3 = countSlots stores (fun l => !l.read) := by
  simp [unreadOf, countSlots, List.countP_eq_length_filter]

/-- The source port at a FRAME mark, said once (R52, R58). -/
theorem State.sourceAtMark_eq (s : State) :
    s.sourceAtMark =
      s.setSource
        { s.source with
          stores := ⟨[], [], [], []⟩, mergeLine := none, lastMissed := ⟨none, none, none, none⟩
          refused := satAdd s.source.refused (countSlots s.source.stores (fun l => !l.read))
          lastReason :=
            if countSlots s.source.stores (fun l => !l.read) = 0 then s.source.lastReason else .unused
          cues := s.source.cues ++
            ((List.range s.lead).map (fun y => ({ frame := s.merge.lastTaken.getD 0, line := y } : Cue))).take
              (8 - s.source.cues.length) } := by
  unfold State.sourceAtMark State.frameCues
  simp only [State.issueCues_eq, State.release, State.refuse_eq, unreadOf_all]
  simp [State.setSource, Four.map, releaseOf, Four.all, State.lead]

theorem Setup.fits_eq (u : Setup) (f : Format) : u.fits f = Machine.fits u f := by simp [Setup.fits, Machine.fits]

/-- A fade step, said once (R34). -/
theorem ActiveEntry.fade_eq (a : ActiveEntry) :
    a.fade =
      { a with
        current :=
          if a.setup.base = 0 then a.current else stepped a.current a.setup.target a.setup.step } := by
  unfold ActiveEntry.fade stepped
  by_cases hb : a.setup.base = 0
  · simp [hb]
  · by_cases hs : a.setup.step = 0
    · have hk : stepped a.current a.setup.target 0 = a.current := by
        unfold stepped; split_ifs <;> omega
      unfold stepped at hk
      simp only [hb, hs, or_true, if_true, if_false, hk]
    · simp only [hb, hs, or_self, if_false]
      split_ifs <;> rfl

/-- One layer at a FRAME mark, said once: `w` says that it is withdrawn (R28 to R30, R34). -/
theorem layerAtMark_eq (f : Format) (first : Bool) (sh : ShadowEntry) (a : ActiveEntry) (w : Bool)
    (hw : w = if sh.pending then sh.setup.base != 0 && !Machine.fits sh.setup f
      else first && a.setup.base != 0 && !Machine.fits a.setup f) :
    layerAtMark f first sh a =
      ({ sh with pending := false },
        if sh.pending then
          { setup := if w then { sh.setup with base := 0 } else sh.setup, current := sh.setup.cover }
        else
          { setup := if w then { a.setup with base := 0 } else a.setup
            current :=
              if a.setup.base = 0 ∨ w = true then a.current else stepped a.current a.setup.target a.setup.step },
        if w then 1 else 0) := by
  unfold layerAtMark
  by_cases hp : sh.pending = true
  · rw [if_pos hp]
    simp only [hp, if_true] at hw
    simp only [ActiveEntry.checkWindow, hp, if_true, Setup.fits_eq, ← hw]
    cases w <;> simp [ActiveEntry.withdraw]
  · have hp' : sh.pending = false := by simpa using hp
    have e : ({ sh with pending := false } : ShadowEntry) = sh := by cases sh; simp_all
    rw [if_neg hp]
    simp only [hp', Bool.false_eq_true, if_false] at hw
    by_cases hf : first = true
    · rw [if_pos hf]
      simp only [ActiveEntry.checkWindow, Setup.fits_eq]
      rw [hf, Bool.true_and] at hw
      rw [← hw]
      cases w with
      | false => simp [hp', e, ActiveEntry.fade_eq]
      | true => simp [hp', e, ActiveEntry.withdraw, ActiveEntry.fade]
    · rw [if_neg hf]
      have h0 : w = false := by rw [hw]; simp [hf]
      subst h0
      simp [hp', e, ActiveEntry.fade_eq]

end Sys2Proof.Machine
end

