-- ==== Sys2Proof/WellFormed.lean ====
section
/-! DEFINITION. When the operands of a command are what its row stands for: a whole cell of its kind that the receiver
found good (R100), a record of its kind of at least one word (R184), an image of 32 bytes (R177). -/
namespace Sys2Proof

open Sys2Proof.Machine

/-- A whole framed cell: 336 bytes that begin with the start mark A7h 3Ch (R97, R183). -/
def WellFormed.framed (c : CellBytes) : Bool :=
  c.length == 336 && byteAt c 0 == 0xA7 && byteAt c 1 == 0x3C

/-- A good cell of a kind: framed, of that kind code, with a good CRC (R100). -/
def WellFormed.cell (kind : Byte) (c : CellBytes) : Bool :=
  WellFormed.framed c && byteAt c 2 == kind && crcGood c

/-- A source record of which at least one word was taken, with a kind byte that is named or not. A record shorter than
one word is cut short (R184) and has no kind byte. Which refusal it gets, or whether it counts, is open, and no row
stands for it: the model's choice (log 32). -/
def WellFormed.record (named : Byte → Bool) : List PortWord → Bool
  | [] => false
  | w :: _ => named (w.extractLsb' 24 8)

/-- The check of a command. -/
def WellFormed : Instr → Bool
  | .reset => true
  | .resetRelease _ => true
  | .configAttemptFails _ => true
  | .retryWaitExpiry => true
  | .configAttemptSucceeds image => image.length == 32
  | .activityAppears => true
  | .aligningSilence => true
  | .lockGained => true
  | .silenceTimerExpiry _ => true
  | .cellError _ => true
  | .probe c => WellFormed.framed c && byteAt c 2 == kindProbe
  | .roster c => WellFormed.cell kindRoster c
  | .commit c => WellFormed.cell kindCommit c
  | .haltCell c => WellFormed.cell kindHalt c
  | .frame c => WellFormed.cell kindFrame c
  | .merge c => WellFormed.cell kindMerge c
  | .result c => WellFormed.cell kindResult c
  | .bulletin c => WellFormed.cell kindBulletin c
  | .unknownKindCell c =>
    WellFormed.framed c && ((byteAt c 2).toNat == 0 || decide (8 < (byteAt c 2).toNat)) && crcGood c
  | .departureOpportunity => true
  | .frameTimerExpiry => true
  | .lineSlotTimerExpiry => true
  | .lapLimitExpiry => true
  | .rosterTimerExpiry => true
  | .commitLimitExpiry => true
  | .noOriginTimerExpiry => true
  | .firstFrameLimitExpiry => true
  | .frameMissingTimerExpiry => true
  | .holdOffTimerExpiry => true
  | .beaconTimerExpiry => true
  | .layerSetup r => WellFormed.record (· == 0x01) r
  | .line r => WellFormed.record (· == 0x02) r
  | .unknownRecord r => WellFormed.record (fun k => k != 0x01 && k != 0x02) r
  | .cueDeparts => true
  | .tapRecordDeparts _ => true

end Sys2Proof
end

