-- ==== Sys2Proof/Tests/Slice0.lean ====
section
/-! SUPPORT. The author's tests: the WellFormed smoke, values the spec prints, one step of each command, and for every
statement with hypotheses a state and operands that meet them. -/
namespace Sys2Proof.Tests

open Sys2Proof.Machine

set_option Elab.async false

/-! ## Helper states -/

/-- A configuration of 64 × 16 at 60 frames/s (the test ring of chapter 10.6), ID 5, lead 2, threshold 8. -/
def cfg : ConfigCopy :=
  { stationId := 5, eligible := true, tooDense := false, format := ⟨2, 16, 4⟩, mode := .top, backdrop := ⟨16, 16, 16⟩,
    backdropCover := 4, lead := 2, threshold := 8 }

/-- Out of reset, with serial A1h, in a ring state, LOCKED and qualified. -/
def station (st : RingState) : State :=
  { State.reset with
    inReset := false, serial := 0xA1
    rx := { lock := .locked, silence := some 200 }
    checker := { Checker.reset with sync := .synced, previous := some 0, clean := 64, qualified := true }
    ring := { Ring.reset with state := st, config := if st = .dark then none else some cfg } }

/-- The loader in hand: READING with a retry count and a wait. -/
def reading (retry : Nat) (wait : Timer) : State :=
  { State.reset with inReset := false, loader := { Loader.reset with state := .reading, retry := retry, wait := wait } }

/-- A committed ring of two stations, epoch 3, this one at a position. -/
def ringAt (p : Nat) : Committed :=
  { roster := if p = 0 then [⟨5, 0xA1⟩, ⟨3, 0xA0⟩] else [⟨3, 0xA0⟩, ⟨5, 0xA1⟩], position := p, format := cfg.format
    mode := .top, backdrop := ⟨16, 16, 16⟩, backdropCover := 4, epoch := 3 }

/-- In RUN at position 1, frame 9 taken. -/
def member : State :=
  let s := station .run
  { s with
    ring := { s.ring with role := .member, committed := some (ringAt 1), lastEpoch := 3 }
    merge := { s.merge with lastTaken := some 9 }
    pins := { s.pins with ringOk := true }
    bulletin := { s.bulletin with health := [⟨3, 0, false⟩, ⟨5, 0, false⟩] } }

/-- In RUN at position 0, frame 9 begun. -/
def origin : State :=
  let s := station .run
  { s with
    ring := { s.ring with role := .origin, committed := some (ringAt 0), lastEpoch := 3 }
    merge := { s.merge with lastTaken := some 9 }
    origin := { s.origin with frameTimer := some { start := 0, next := 1 }, frameNumber := some 9 }
    pins := { ringOk := true, origin := true, fault := false }
    bulletin := { s.bulletin with health := [⟨5, 0, false⟩, ⟨3, 0, false⟩] } }

/-- Not LOCKED, checker in HUNT. -/
def unlinked (s : State) : State := { s with rx := { lock := .aligning, silence := none }, checker := Checker.reset }

/-- With a checker previous position, runs of clean and bad probes, and per-frame errors. -/
def checking (s : State) (clean bad : Nat) (qualified : Bool) (errors : Byte) : State :=
  { s with
    checker := { s.checker with clean := clean, bad := bad, qualified := qualified, frameErrors := errors } }

/-- In HUNT with a previous position. -/
def hunting (s : State) (q : Option Nat) : State :=
  { s with checker := { Checker.reset with previous := q } }

/-- The next state of an outcome. -/
def nextOf : Host.Outcome State Fault Refusal → Option State
  | .next t => some t
  | .fault _ => none
  | .refused _ => none

/-- A PROBE cell with the stream's bytes from a position. -/
def goodProbe (p : Nat) : CellBytes := probeCell p (probeRun p)

/-- A PROBE cell from a position whose bytes are all 00h. -/
def zeroProbe (p : Nat) : CellBytes := probeCell p []

/-- A ROSTER launched by station 3 (serial A0h), with the entries of others after it. -/
def rosterOf (serial : Serial) (launch : Byte) (others : List RollEntry) : CellBytes :=
  RosterCell.bytes
    { originator := if serial = 0xA1 then 5 else 3, serial := serial, launch := launch, count := others.length + 1
      entries := { id := if serial = 0xA1 then 5 else 3, serial := serial, eligible := true, lastEpoch := 0 } :: others }

/-- A COMMIT of epoch 3 whose entry 0 has a serial. -/
def commitFrom (serial : Serial) (others : List RosterEntry) : CellBytes :=
  CommitCell.bytes
    { epoch := 3, originId := 3, format := cfg.format, modeCode := 0, backdrop := ⟨16, 16, 16⟩, backdropCover := 4
      count := others.length + 1, entries := { id := 3, serial := serial } :: others }

/-- A HALT cell of a cause code and reporter in an epoch. -/
def haltOf (cause reporter epoch : Byte) : CellBytes := cellOf kindHalt epoch [reporter, cause]

/-- A MERGE cell of epoch 3 with empty pairs. -/
def mergeOf (frame : Half) (line span : Nat) : CellBytes :=
  MergeCell.bytes { epoch := 3, frame := frame, line := line, span := span, pairs := List.replicate 32 Pair.empty }

/-- A BULLETIN cell of epoch 3 from an ID at a position. -/
def bulletinFrom (id : Byte) (p : Byte) : CellBytes := cellOf kindBulletin 3 [id, p, 1, 0, 0, 9]

/-- An image for a station ID, format and threshold, its last byte bringing the sum to 0. -/
def imageOf (id eligible spans : Byte) (height : Half) (rate mode cover lead threshold : Byte) : List Byte :=
  let b := [0x45, 0x55, 1, id, eligible, spans] ++ halfBytes height ++
    [rate, mode, 16, 16, 16, cover, lead, threshold] ++ List.replicate 15 0
  b ++ [byteOf (256 - imageSum b)]

/-- A LAYER_SETUP record for a layer: a window at 0, 0, fading to 16 by 3. -/
def setupRecord (layer base : Byte) (width height : Half) : List Byte :=
  [1, 0, 20, layer, base, 0, 0, 0, 0] ++ halfBytes width ++ halfBytes height ++ [0, 16, 3, 0, 1, 2, 3]

/-- The fields of `setupRecord`. -/
def setupFields (base width height : Nat) : Setup :=
  { base := base, x0 := 0, y0 := 0, width := width, height := height, cover := 0, target := 16, step := 3,
    marks := ⟨.plain, .lift, .solid, .hole⟩ }

/-- A LINE record of layer 1 with one pixel of mark 2. -/
def lineRecord (line : Byte) : List Byte := [2, 0, 12, 1, 0, line, 0, 1, 10, 20, 30, 2]

def lineFields (line : Nat) : LineRecord := { layer := 1, line := line, pixels := [⟨⟨10, 20, 30⟩, 2⟩] }

/-- A member whose layer 1 shows one column on lines 0 to 5, with stored lines and a current merge line. -/
def showing (lines : List Nat) (mergeLine : Option Nat) : State :=
  { member with
    layers := { member.layers with
      active := member.layers.active.set 1
        { setup := { setupFields 3 1 6 with cover := 16 }, current := 16 } }
    source := { member.source with
      mergeLine := mergeLine
      stores := member.source.stores.set 1
        (lines.map (fun y => { line := y, pixels := [⟨⟨10, 20, 30⟩, 2⟩], read := false })) } }

/-- An outstanding entry of frame 9. -/
def entry (line span launch : Nat) (st : EntryState) : OutEntry :=
  { frame := 9, line := line, span := span, launch := launch, state := st }

/-- The origin with an outstanding list, a ready FRAME and lines to launch. -/
def engine (out : List OutEntry) (ready : Option Half) (lines : List Nat) : State :=
  { origin with origin := { origin.origin with outstanding := out, readyFrame := ready, lines := lines } }

/-- A bulletin to send. -/
def someBulletin : Bulletin :=
  { sender := 5, position := 1, role := .member, frame := 9, counters := member.counters .member, silent := [] }

/-! ## WellFormed: one ill-formed term for each check -/

theorem test_wf_framed_length : WellFormed (.probe [0xA7, 0x3C, 1, 0]) = false := by decide +kernel
theorem test_wf_framed_mark : WellFormed (.probe (0 :: (goodProbe 0).drop 1)) = false := by decide +kernel
theorem test_wf_probe_kind : WellFormed (.probe (frameCell 3 9)) = false := by decide +kernel
theorem test_wf_cell_kind : WellFormed (.frame (sealCell (haltOf 1 5 3))) = false := by decide +kernel
set_option maxRecDepth 200000 in
theorem test_wf_cell_crc : WellFormed (.frame (frameCell 3 9)) = false := by decide +kernel
theorem test_wf_unknown_kind : WellFormed (.unknownKindCell (sealCell (frameCell 3 9))) = false := by decide +kernel
theorem test_wf_image_length : WellFormed (.configAttemptSucceeds [0x45, 0x55]) = false := by decide
theorem test_wf_record_shorter_than_a_word : WellFormed (.layerSetup []) = false := by decide
theorem test_wf_record_empty : WellFormed (.unknownRecord []) = false := by decide
theorem test_wf_setup_kind : WellFormed (.layerSetup (wordsOf (lineRecord 0))) = false := by decide
theorem test_wf_line_kind : WellFormed (.line (wordsOf (setupRecord 0 1 1 1))) = false := by decide
theorem test_wf_unknown_record_kind : WellFormed (.unknownRecord (wordsOf (lineRecord 0))) = false := by decide
set_option maxRecDepth 200000 in
theorem test_wf_good :
    WellFormed (.probe (goodProbe 120)) = true ∧ WellFormed (.frame (sealCell (frameCell 3 9))) = true ∧
      WellFormed (.line (wordsOf (lineRecord 0))) = true ∧
      WellFormed (.layerSetup (wordsOf (setupRecord 0 1 1 1))) = true := by
  decide +kernel

/-! ## Values the spec prints -/

/-- R112: the register has a period of 127 bits, and byte positions 0 and 1 are FEh and 04h. -/
theorem test_probe_stream : lfsrAfter 127 = lfsrAfter 0 ∧ probeByte 0 = 0xFE ∧ probeByte 1 = 0x04 := by decide +kernel

/-- Chapter 6: a generator at 120 sends positions 120 to 126 and 0 to 16, and moves to 17. -/
theorem test_probe_wraps :
    probeRun 120 = (List.range' 120 7 ++ List.range 17).map probeByte ∧ probeAdvance 120 = 17 := by decide +kernel

/-- The check value of the CRC with this generator and start (known of the family; R98 prints none). -/
theorem test_crc_check_value : crc [0x31, 0x32, 0x33, 0x34, 0x35, 0x36, 0x37, 0x38, 0x39] = 0x29B1 := by decide +kernel

/-- Chapter 1.5: the pair that comes back at position 100 of line 40, by the four insertions. -/
theorem test_merge_example :
    ([ ⟨2, ⟨40, 60, 80⟩, 16, false, 3, 0⟩, ⟨4, ⟨240, 240, 240⟩, 8, false, 5, 0⟩, ⟨4, ⟨255, 0, 0⟩, 12, false, 5, 2⟩,
        ⟨4, ⟨0, 0, 255⟩, 16, true, 12, 1⟩ ] : List Candidate).foldl Pair.insert Pair.empty =
      { top := ⟨4, ⟨240, 240, 240⟩, 8, false, 5, 0⟩, second := ⟨4, ⟨255, 0, 0⟩, 12⟩ } := by decide

/-- Chapter 1.5: TOP mode gives 248, 120, 120. -/
theorem test_resolve_example :
    resolve { mode := .top, backdrop := ⟨16, 16, 16⟩, cover := 4 }
      { top := ⟨4, ⟨240, 240, 240⟩, 8, false, 5, 0⟩, second := ⟨4, ⟨255, 0, 0⟩, 12⟩ } = ⟨248, 120, 120⟩ := by decide

/-- Chapter 2: a fade from 0 to 16 with step 3 reaches 16 at the sixth FRAME mark, through 15 at the fifth. -/
theorem test_fade_example :
    ((ActiveEntry.fade)^[5] { setup := setupFields 1 1 1, current := 0 }).current = 15 ∧
      ((ActiveEntry.fade)^[6] { setup := setupFields 1 1 1, current := 0 }).current = 16 := by decide

/-- The table under R180. -/
theorem test_capacity_table :
    (cellBudget ⟨60, 1080, 4⟩, Format.passes ⟨60, 1080, 4⟩) = (306, true) ∧
      (cellBudget ⟨60, 1080, 6⟩, Format.passes ⟨60, 1080, 6⟩) = (153, true) ∧
      (cellBudget ⟨64, 1200, 6⟩, Format.passes ⟨64, 1200, 6⟩) = (137, false) ∧
      (cellBudget ⟨64, 1200, 5⟩, Format.passes ⟨64, 1200, 5⟩) = (165, true) := by decide

/-- Table 12-3, bit by bit: a solid top of priority 4 from layer 2 of station 5, second of priority 3 and cover 12. -/
theorem test_pair_bytes :
    Pair.bytes { top := ⟨4, ⟨1, 2, 3⟩, 16, true, 5, 2⟩, second := ⟨3, ⟨7, 8, 9⟩, 12⟩ } =
      [0b11000010, 5, 16, 1, 2, 3, 0b01101100, 7, 8, 9] := by decide +kernel

/-- R184: a HALT_NOTICE of six bytes leaves as two words, the second padded, and then TAP_FRM is deasserted. -/
theorem test_halt_notice_words :
    TapRecord.edges (.haltNotice ⟨.lockLost, 5, 3⟩) = [.word 0x86000601, .word 0x05030000, .idle] := by decide

/-- R184: the kind byte of a record is on lines 31 to 24 of its first word. -/
theorem test_record_words :
    recordBytes [0x0200000C, 0x01000500, 0x010A141E] = [2, 0, 0, 12, 1, 0, 5, 0, 1, 10, 20, 30] ∧
      recordBytes (wordsOf (lineRecord 5)) = lineRecord 5 := by decide

/-- R184: the most significant bit of a byte goes first. -/
theorem test_cue_bits :
    byteBits 0x83 = [true, false, false, false, false, false, true, true] ∧
      (Cue.edges ⟨9, 3⟩).take 8 = (byteBits 0x03).map .bit ∧ (Cue.edges ⟨9, 3⟩).length = 64 := by decide

/-! ## One step of each command -/

theorem test_reset : nextOf (exec .reset member) = some { State.reset with serial := 0xA1 } := by decide +kernel
theorem test_release_strapped :
    (nextOf (exec (.resetRelease true) State.reset)).map (fun t => (t.ring.state, t.ring.relayCause, t.pins.fault)) =
      some (.relay, .strapped, false) := by decide +kernel
theorem test_attempt_fails :
    (nextOf (exec (.configAttemptFails .wordAddress) (reading 3 none))).map (fun t => (t.loader.state, t.pins.fault)) =
      some (.absent, true) := by decide +kernel
theorem test_retry_wait :
    (nextOf (exec .retryWaitExpiry (reading 1 (some 20000)))).map (fun t => (t.now, t.loader.wait, t.loader.bus)) =
      some (20000, none, [.ninePulses, .stop, .start]) := by decide +kernel
/-- The address 1010000b, the write direction and the acknowledge, pulse by pulse (R177). -/
theorem test_bus_byte :
    sampledAt (BusAction.lines (.send 0xA0 true)) = [true, false, true, false, false, false, false, false, false] := by
  decide +kernel
theorem test_attempt_succeeds :
    (nextOf (exec (.configAttemptSucceeds (imageOf 5 1 2 16 4 0 4 2 8)) (reading 0 none))).map
        (fun t => (t.ring.state, t.ring.config)) = some (.listen, some cfg) := by decide +kernel
theorem test_activity :
    (nextOf (exec .activityAppears { State.reset with inReset := false })).map (fun t => t.rx.lock) = some .aligning := by
  decide +kernel
theorem test_aligning_silence :
    (nextOf (exec .aligningSilence (unlinked (station .listen)))).map (fun t => t.rx.lock) = some .noSignal := by
  decide +kernel
theorem test_lock_gained :
    (nextOf (exec .lockGained (unlinked (station .listen)))).map (fun t => (t.rx.lock, t.rx.silence, t.ring.state)) =
      some (.locked, some 200, .listen) := by decide +kernel
theorem test_silence :
    (nextOf (exec (.silenceTimerExpiry false) (station .roll))).map (fun t => (t.rx.lock, t.ring.state, t.now)) =
      some (.noSignal, .listen, 200) := by decide +kernel
theorem test_cell_error :
    (nextOf (exec (.cellError .crcFailed) member)).map (fun t => (t.filter.cellErrors, t.ring.state)) =
      some (1, .run) := by decide +kernel
theorem test_probe :
    (nextOf (exec (.probe (goodProbe 24)) (checking (station .listen) 63 0 false 0))).map
        (fun t => (t.ring.state, t.ring.launchNumber, t.checker.previous)) = some (.roll, 1, some 24) := by
  decide +kernel
theorem test_roster_elects :
    (nextOf (exec (.roster (rosterOf 0xA1 0 [⟨3, 0xA0, true, 7⟩])) (station .roll))).map
        (fun t => (t.ring.elected, t.ring.commitEpoch, t.tx.launch.map LaunchCell.kind)) =
      some (true, 8, [.commit]) := by decide +kernel
theorem test_roster_appended :
    (nextOf (exec (.roster (rosterOf 0xA0 1 [])) (station .roll))).map
        (fun t => t.tx.forward.map (fun c => (readRoster c).entries.map RollEntry.id)) = some [[3, 5]] := by
  decide +kernel
/-- What arrives in the unnamed flag bits and in the unused bytes does not leave (R183). -/
theorem test_roster_unused_bytes :
    (nextOf (exec (.roster (splice (splice (rosterOf 0xA0 1 []) 16 [0xFF]) 25 [7, 7])) (station .roll))).map
        (fun t => t.tx.forward.map (fun c => (byteAt c 16, byteAt c 23, byteAt c 25, byteAt c 26))) =
      some [(1, 1, 0, 0)] := by decide +kernel
theorem test_commit_joins :
    (nextOf (exec (.commit (commitFrom 0xA0 [⟨5, 0xA1⟩])) (station .roll))).map
        (fun t => (t.ring.state, t.ring.role, t.position, t.epoch, t.pins.ringOk)) =
      some (.run, .member, some 1, 3, true) := by decide +kernel
theorem test_halt_cell :
    (nextOf (exec (.haltCell (haltOf 1 3 3)) member)).map (fun t => (t.ring.state, t.ring.lastHalt, t.ring.holdOff)) =
      some (.halt, some ⟨.lockLost, 3, 3⟩, some 20000) := by decide +kernel
/-- A cue that is known to have begun stays through a halt, whatever the next free choice is (R57; log 8). -/
theorem test_begun_cue_stays :
    (nextOf (exec (.haltCell (haltOf 1 3 3)) { member with
        source := { member.source with cues := [⟨9, 0⟩, ⟨9, 1⟩], cueBegun := true } })).map
        (fun t => (t.source.cues, t.source.cueBegun)) = some ([⟨9, 0⟩], true) := by decide +kernel
theorem test_frame :
    (nextOf (exec (.frame (frameCell 3 10)) member)).map
        (fun t => (t.merge.lastTaken, t.source.cues, t.tx.forward.length)) =
      some (some 10, [⟨10, 0⟩, ⟨10, 1⟩], 1) := by decide +kernel
theorem test_merge :
    (nextOf (exec (.merge (mergeOf 9 2 0)) (showing [2, 3] none))).map
        (fun t => (t.tx.forward.map (fun c => ((readMerge c).pairs.map (fun p => p.top.priority)).take 2),
          t.source.mergeLine, t.source.stores.e1.map Slot.read, t.source.cues)) =
      some ([[3, 0]], some 2, [true, false], [⟨9, 4⟩]) := by decide +kernel
theorem test_merge_returns :
    (nextOf (exec (.merge (mergeOf 9 2 0)) (engine [entry 1 1 0 .inFlight, entry 2 0 0 .inFlight] none []))).map
        (fun t => (t.origin.outstanding.map OutEntry.state, t.origin.lostByOrder)) =
      some ([.lost, .resolved (List.replicate 32 ⟨16, 16, 16⟩)], 1) := by decide +kernel
theorem test_result :
    (nextOf (exec (.result (resultCell 3 ⟨9, 0, 1, true, List.replicate 32 Colour.zero⟩)) member)).map
        (fun t => (t.tap.queue.length, t.tap.next)) = some (3, ⟨1, 0⟩) := by decide +kernel
theorem test_bulletin :
    (nextOf (exec (.bulletin (bulletinFrom 3 0)) member)).map (fun t => (t.tap.queue.length, t.tx.forward.length)) =
      some (1, 1) := by decide +kernel
theorem test_unknown_kind :
    (nextOf (exec (.unknownKindCell (cellOf 9 3 [])) member)).map (fun t => t.filter.stale) = some 1 := by decide +kernel
theorem test_departure_probe :
    (nextOf (exec .departureOpportunity (station .listen))).map (fun t => (t.now, t.tx.probePosition)) =
      some (1, 24) := by decide +kernel
theorem test_departure_merge :
    (nextOf (exec .departureOpportunity (engine [] none [0]))).map
        (fun t => (t.origin.outstanding, t.origin.nextSpan, t.source.mergeLine)) =
      some ([entry 0 0 1 .inFlight], 1, some 0) := by decide +kernel
theorem test_frame_timer :
    (nextOf (exec .frameTimerExpiry (engine [] none [3]))).map
        (fun t => (t.now, t.origin.frameNumber, t.origin.readyFrame, t.origin.lines, t.origin.skipped)) =
      some (333333, some 10, some 10, [], 1) := by decide +kernel
theorem test_line_slot :
    (nextOf (exec .lineSlotTimerExpiry { origin with
        origin := { origin.origin with frameTimer := some ⟨0, 2⟩, lineSlot := some 23 } })).map
        (fun t => (t.now, t.origin.lines, t.origin.lineSlot)) = some (652777, [15], none) := by decide +kernel
theorem test_lap_limit :
    (nextOf (exec .lapLimitExpiry (engine [entry 0 0 5 .inFlight] none []))).map
        (fun t => (t.now, t.origin.outstanding.map OutEntry.state, t.origin.lostByTime)) =
      some (405, [.lost], 1) := by decide +kernel
theorem test_roster_timer :
    (nextOf (exec .rosterTimerExpiry { station .roll with
        ring := { (station .roll).ring with rosterTimer := some 40000, launchNumber := 255 } })).map
        (fun t => (t.ring.launchNumber, t.tx.launch.map LaunchCell.kind)) = some (0, [.roster]) := by decide +kernel
theorem test_commit_limit :
    (nextOf (exec .commitLimitExpiry { station .roll with
        ring := { (station .roll).ring with commitLimit := some 40000, elected := true, lastEpoch := 7 } })).map
        (fun t => t.ring.lastHalt) = some (some ⟨.commitLost, 5, 7⟩) := by decide +kernel
theorem test_no_origin :
    (nextOf (exec .noOriginTimerExpiry { station .roll with
        ring := { (station .roll).ring with noOriginTimer := some 400000 } })).map
        (fun t => (t.ring.noOrigin, t.ring.noOriginTimer)) = some (true, none) := by decide +kernel
theorem test_first_frame :
    (nextOf (exec .firstFrameLimitExpiry { member with ring := { member.ring with firstFrame := some 7 } })).map
        (fun t => t.ring.lastHalt) = some (some ⟨.frameMissing, 5, 3⟩) := by decide +kernel
theorem test_frame_missing :
    (nextOf (exec .frameMissingTimerExpiry { member with ring := { member.ring with frameMissing := some 7 } })).map
        (fun t => (t.ring.state, t.tx.launch)) = some (.halt, [.halt (haltOf 4 5 3)]) := by decide +kernel
theorem test_hold_off :
    (nextOf (exec .holdOffTimerExpiry { station .halt with
        ring := { (station .halt).ring with holdOff := some 20000, demotion := some .ringTooLong } })).map
        (fun t => (t.ring.state, t.ring.relayCause, t.pins.fault)) = some (.relay, .ringTooLong, true) := by
  decide +kernel
theorem test_beacon :
    (nextOf (exec .beaconTimerExpiry { station .listen with
        ring := { (station .listen).ring with beacon := some 20000 } })).map
        (fun t => t.tap.queue.map TapRecord.bytes) =
      some [[0x87, 0, 15, 5, 1, 0, 0, 2, 1, 0b00000101, 0, 0, 0, 0, 0]] := by decide +kernel
theorem test_layer_setup :
    (nextOf (exec (.layerSetup (wordsOf (setupRecord 1 3 1 6))) member)).map (fun t => t.layers.shadow.e1) =
      some { setup := setupFields 3 1 6, pending := true } := by decide +kernel
theorem test_line :
    (nextOf (exec (.line (wordsOf (lineRecord 5))) (showing [2, 3] (some 1)))).map
        (fun t => (t.source.stores.e1.map Slot.line, t.source.refused)) = some ([2, 3, 5], 0) := by decide +kernel
theorem test_line_late :
    (nextOf (exec (.line (wordsOf (lineRecord 1))) (showing [2, 3] (some 1)))).map
        (fun t => (t.source.lastReason, t.source.refused)) = some (.late, 1) := by decide +kernel
theorem test_unknown_record :
    (nextOf (exec (.unknownRecord [0x09000400]) (station .listen))).map (fun t => t.source.lastReason) =
      some .malformed := by decide +kernel
theorem test_cue_departs :
    (nextOf (exec .cueDeparts { member with source := { member.source with cues := [⟨0x0102, 3⟩] } })).map
        (fun t => (t.source.cues, t.source.cueOut)) =
      some ([], ([3, 0, 8, 1, 2, 0, 3, 0].flatMap byteBits).map .bit) := by decide +kernel
theorem test_tap_departs :
    (nextOf (exec (.tapRecordDeparts true) { member with
        tap := { member.tap with queue := [.frameBegin 9 3 false] } })).map (fun t => (t.tap.queue, t.tap.out)) =
      some ([], [.word 0x81000700, .word 0x09030000, .idle]) := by decide +kernel

/-! ## Hypotheses that are met: one theorem for each statement, a clause for each of its clauses -/

/-- A fact about the held configuration, shown for every one by showing it for `cfg`. -/
theorem of_cfg {s : State} {P : ConfigCopy → Prop} (h : s.ring.config = some cfg) (hp : P cfg) :
    ∀ c, s.ring.config = some c → P c := by
  intro c hc
  rw [h] at hc
  cases hc
  exact hp

theorem test_meets_StepRunsTheFrontCommand : State.reset.pending = [] := by decide

theorem test_meets_ResetAndItsReleaseBeginStartUp : State.reset.inReset = true := by decide

theorem test_meets_EventsThatCannotAriseChangeNothing :
    (State.reset.inReset = true ∧ Instr.cueDeparts ≠ .reset ∧ ∀ b, Instr.cueDeparts ≠ .resetRelease b) ∧
      (reading 0 none).inReset = false ∧
      (Instr.rosterTimerExpiry ∈ expiryCommands ∧ (∀ a, Instr.rosterTimerExpiry ≠ .silenceTimerExpiry a) ∧
        (station .roll).due .rosterTimerExpiry = none) ∧
      (unlinked (station .listen)).rx.lock ≠ .locked ∧ (station .dark).loader.state ≠ .reading ∧
      (reading 1 (some 20000)).loader.wait ≠ none := by
  refine ⟨⟨rfl, by decide, by decide⟩, rfl, ⟨by decide, by decide, rfl⟩, by decide⟩

theorem test_meets_TheLoaderRetriesThreeTimes :
    ((reading 2 none).inReset = false ∧ (reading 2 none).loader.state = .reading ∧ (reading 2 none).loader.wait = none ∧
      (reading 2 none).loader.retry < 3) ∧
      (reading 3 none).loader.retry = 3 ∧ (reading 3 (some 60000)).loader.wait = some 60000 := by decide

/-- The lowest and the highest valid fields, an ID just out of range, and a link that is ready. -/
theorem test_meets_TheImageDecidesHowTheStationLeavesDark :
    (ValidImage (imageOf 1 0 1 16 0 0 0 1 1) ∧ (imageOf 1 0 1 16 0 0 0 1 1).length = 32) ∧
      (ValidImage (imageOf 63 1 64 1200 6 1 16 4 255) ∧ (imageOf 63 1 64 1200 6 1 16 4 255).length = 32) ∧
      (¬ValidImage (imageOf 64 1 64 1200 6 1 16 4 255) ∧ (imageOf 64 1 64 1200 6 1 16 4 255).length = 32) ∧
      (station .dark).rx.lock = .locked ∧ (station .dark).checker.qualified = true := by
  unfold ValidImage
  decide +kernel

theorem test_meets_BusLinesFollowTheConditions :
    ({ Loader.reset with bus := [.ninePulses, .stop, .start] }).bus = [.ninePulses, .stop, .start] ∧
      (∀ p, ({ Loader.reset with bus := failedTransfer p }).bus = failedTransfer p) ∧
      (List.replicate 32 (0 : Byte)).length = 32 := ⟨rfl, fun _ => rfl, rfl⟩

theorem test_meets_LockStateFollowsTheLink :
    State.reset.rx.lock = .noSignal ∧ (unlinked (station .listen)).rx.lock = .aligning ∧
      ((station .listen).rx.lock ≠ .noSignal ∧ (station .listen).rx.lock ≠ .aligning) ∧
      (unlinked (station .listen)).inReset = false ∧
      ¬((unlinked (station .listen)).ring.state = .listen ∧ (unlinked (station .listen)).checker.qualified = true) ∧
      ({ unlinked (station .listen) with checker := (station .listen).checker }).checker.qualified = true := by
  decide

theorem test_meets_LossOfLockActsByRingState :
    ∀ st : RingState, (station st).Hears ∧ (station st).rx.silence = some 200 ∧ (station st).ring.state = st := by
  intro st
  cases st <;> exact ⟨⟨rfl, rfl⟩, rfl, rfl⟩

/-- An error sum one below the threshold of 8 after the count, and at it; a count that stands at 255. -/
theorem test_meets_CellErrorsAreCountedAndTested :
    (unlinked member).rx.lock ≠ .locked ∧ member.rx.lock = .locked ∧ member.ring.state = .run ∧
      (∀ c, member.ring.config = some c →
        (checking member 0 0 true 6).checker.frameErrors.toNat + member.filter.cellErrors.toNat + 1 < c.threshold) ∧
      ¬({ member.filter with cellErrors := 255 }).cellErrors.toNat < 255 ∧
      member.filter.cellErrors.toNat < 255 ∧
      ∀ c, member.ring.config = some c →
        c.threshold ≤ (checking member 0 0 true 7).checker.frameErrors.toNat + member.filter.cellErrors.toNat + 1 :=
  ⟨by decide, rfl, rfl, of_cfg rfl (by decide), by decide, by decide, of_cfg rfl (by decide)⟩

/-- A start of 126 in sequence and out of it, a start of 127, and bytes that differ. -/
theorem test_meets_HuntFollowsTheProbePositions :
    (hunting (station .listen) (some 102)).Hears ∧ (hunting (station .listen) (some 102)).checker.sync = .hunt ∧
      (probeStart (goodProbe 126) ≤ 126 ∧ differing (goodProbe 126) = []) ∧
      (hunting (station .listen) (some 102)).checker.previous.map (fun q => (q + 24) % 127) =
        some (probeStart (goodProbe 126)) ∧
      (hunting (station .listen) none).checker.previous.map (fun q => (q + 24) % 127) ≠
        some (probeStart (goodProbe 126)) ∧
      126 < probeStart (goodProbe 127) ∧ differing (zeroProbe 126) ≠ [] := by
  unfold State.Hears
  decide +kernel

/-- A clean probe and a slipped one while SYNCED in RUN, and the 64th clean probe in LISTEN. -/
theorem test_meets_SyncedProbesAreCounted :
    (member.Hears ∧ member.checker.sync = .synced ∧ member.checker.previous = some 0) ∧
      (member.checker.after 0 (goodProbe 24) (some 9)).bad ≠ 4 ∧ errorsOf 0 (goodProbe 24) = 0 ∧
      errorsOf 0 (goodProbe 25) = 1 ∧
      (∀ c, member.ring.config = some c →
        (member.checker.after 0 (goodProbe 25) (some 9)).frameErrors.toNat + member.filter.cellErrors.toNat <
          c.threshold) ∧
      ((checking (station .listen) 63 0 false 0).Hears ∧
        (checking (station .listen) 63 0 false 0).ring.state = .listen ∧
        (checking (station .listen) 63 0 false 0).checker.clean = 63 ∧
        (checking (station .listen) 63 0 false 0).checker.qualified = false) := by
  refine ⟨⟨⟨rfl, rfl⟩, rfl, rfl⟩, by decide +kernel, by decide +kernel, by decide +kernel,
    of_cfg rfl (by decide +kernel), ⟨rfl, rfl⟩, rfl, rfl, rfl⟩

/-- One slip that brings 7 errors to 8. -/
theorem test_meets_ErrorSumAtTheThresholdHalts :
    (checking member 0 0 true 7).Hears ∧ (checking member 0 0 true 7).ring.state = .run ∧
      ((checking member 0 0 true 7).checker.after 0 (goodProbe 25) (some 9)).bad ≠ 4 ∧
      ((checking member 0 0 true 7).checker.after 0 (goodProbe 25) (some 9)).frameErrors ≠
        (checking member 0 0 true 7).checker.frameErrors ∧
      (checking member 0 0 true 7).ring.config = some cfg ∧
      cfg.threshold ≤ ((checking member 0 0 true 7).checker.after 0 (goodProbe 25) (some 9)).frameErrors.toNat +
        (checking member 0 0 true 7).filter.cellErrors.toNat := by
  unfold State.Hears
  decide +kernel

/-- The fourth bad probe, in every ring state, with the error sum below the threshold and at it. -/
theorem test_meets_FourthBadProbeLosesSync :
    (∀ st : RingState, (checking (station st) 0 3 true 0).Hears ∧ (checking (station st) 0 3 true 0).ring.state = st ∧
      (checking (station st) 0 3 true 0).checker.sync = .synced ∧
      (checking (station st) 0 3 true 0).checker.previous = some 0) ∧
    (∀ e ∈ [0, 7], ((checking member 0 3 true e).checker.after 0 (goodProbe 25) (some 9)).bad = 4) ∧
    (∀ c, (checking member 0 3 true 0).ring.config = some c →
      ((checking member 0 3 true 0).checker.after 0 (goodProbe 25) (some 9)).frameErrors.toNat +
        (checking member 0 3 true 0).filter.cellErrors.toNat < c.threshold) ∧
    ∀ c, (checking member 0 3 true 7).ring.config = some c →
      c.threshold ≤ ((checking member 0 3 true 7).checker.after 0 (goodProbe 25) (some 9)).frameErrors.toNat +
        (checking member 0 3 true 7).filter.cellErrors.toNat := by
  refine ⟨fun st => ?_, by decide +kernel, of_cfg rfl (by decide +kernel), of_cfg rfl (by decide +kernel)⟩
  cases st <;> exact ⟨⟨rfl, rfl⟩, rfl, rfl, rfl⟩

theorem test_meets_ProbeStreamComesFromTheRegister :
    exec .reset State.reset = .next State.reset ∧
      exec .departureOpportunity State.reset = .next State.reset ∧
      Instr.cueDeparts ≠ .reset ∧ Instr.cueDeparts ≠ .departureOpportunity ∧
      exec .cueDeparts State.reset = .next State.reset := ⟨rfl, rfl, by decide, by decide, rfl⟩

theorem test_meets_CellFilterOutsideRun :
    carriedCell (.frame (frameCell 3 9)) = some (frameCell 3 9) ∧ (unlinked (station .listen)).rx.lock ≠ .locked ∧
      Instr.frame (frameCell 3 9) ≠ .probe (frameCell 3 9) ∧ Instr.frame (frameCell 3 9) ≠ .roster (frameCell 3 9) ∧
      Instr.frame (frameCell 3 9) ≠ .commit (frameCell 3 9) ∧
      Instr.frame (frameCell 3 9) ≠ .haltCell (frameCell 3 9) ∧
      ∀ st : RingState, (station st).inReset = false ∧ (station st).rx.lock = .locked ∧ (station st).ring.state = st := by
  refine ⟨rfl, by decide, by simp, by simp, by simp, by simp, fun st => ?_⟩
  cases st <;> exact ⟨rfl, rfl, rfl⟩

theorem test_meets_CellFilterInRun :
    member.Hears ∧ member.ring.state = .run ∧
      (cellEpoch (haltOf 6 3 2) ≠ member.epoch ∧ byteAt (haltOf 6 3 2) 5 ≠ 7 ∧ byteAt (haltOf 6 3 2) 5 ≠ 8) ∧
      cellEpoch (frameCell 2 9) ≠ member.epoch ∧
      (cellEpoch (frameCell 3 9) = origin.epoch ∧ origin.ring.role = .origin) := by
  unfold State.Hears
  decide +kernel

/-- An empty roster; rosters superseded, stale and outranked. -/
theorem test_meets_RostersThatEndAtTheStation :
    (station .roll).Hears ∧ (station .roll).ring.state = .roll ∧ ¬RosterForm (readRoster (cellOf kindRoster 0 [])) ∧
      RosterForm (readRoster (rosterOf 0xA1 9 [])) ∧
      ((readRoster (rosterOf 0xA1 9 [])).serial = (station .roll).serial ∧
        (readRoster (rosterOf 0xA1 9 [])).launch ≠ (station .roll).ring.launchNumber) ∧
      ((readRoster (rosterOf 0xA0 9 [⟨5, 0xA1, true, 0⟩])).serial ≠ (station .roll).serial ∧
        ∃ e ∈ (readRoster (rosterOf 0xA0 9 [⟨5, 0xA1, true, 0⟩])).entries, e.serial = (station .roll).serial) ∧
      ∃ lower : State, lower.eligible = true ∧
        lower.stationId.toNat < (readRoster (rosterOf 0xA0 9 [])).originator.toNat ∧
        ∀ e ∈ (readRoster (rosterOf 0xA0 9 [])).entries, e.serial ≠ lower.serial := by
  refine ⟨⟨rfl, rfl⟩, rfl, ?_, ?_, by decide +kernel, by decide +kernel,
    { station .roll with ring := { (station .roll).ring with config := some { cfg with stationId := 2 } } },
    by decide +kernel, by decide +kernel, by decide +kernel⟩
  · intro h
    exact absurd h.1 (by decide +kernel)
  · exact (RosterCell.goodForm_iff _).1 (by decide +kernel)

/-- A roster of one entry of another station, and the longest that has room. -/
theorem test_meets_RosterGainsTheStationsEntry :
    (readRoster (rosterOf 0xA0 9 (List.replicate 14 ⟨9, 0xB0, false, 0⟩))).count = 15 ∧
      (rosterOf 0xA0 9 []).length = 336 ∧ RosterForm (readRoster (rosterOf 0xA0 9 [])) ∧
      (∀ e ∈ (readRoster (rosterOf 0xA0 9 [])).entries,
        e.serial ≠ (station .roll).serial ∧ e.id ≠ (station .roll).stationId) ∧
      ¬((station .roll).eligible = true ∧
        (station .roll).stationId.toNat < (readRoster (rosterOf 0xA0 9 [])).originator.toNat) ∧
      (readRoster (rosterOf 0xA0 9 [])).count < 16 := by
  refine ⟨by decide +kernel, by decide +kernel, ?_, by decide +kernel, by decide +kernel, by decide +kernel⟩
  exact (RosterCell.goodForm_iff _).1 (by decide +kernel)

theorem test_meets_OwnRosterElectsTheStation :
    (station .roll).Hears ∧ (station .roll).ring.config = some cfg ∧
      RosterForm (readRoster (rosterOf 0xA1 0 [⟨3, 0xA0, true, 255⟩])) ∧
      (readRoster (rosterOf 0xA1 0 [⟨3, 0xA0, true, 255⟩])).serial = (station .roll).serial ∧
      (readRoster (rosterOf 0xA1 0 [⟨3, 0xA0, true, 255⟩])).launch = (station .roll).ring.launchNumber := by
  refine ⟨⟨rfl, rfl⟩, rfl, ?_, by decide +kernel, by decide +kernel⟩
  exact (RosterCell.goodForm_iff _).1 (by decide +kernel)

/-- Fifteen stations of ID 9 after the originator: no room. -/
def fullRoster : CellBytes := rosterOf 0xA0 9 (List.replicate 15 ⟨9, 0xB0, false, 0⟩)

theorem test_meets_RostersThatDemoteTheStation :
    (RosterForm (readRoster (rosterOf 0xA0 9 [⟨5, 0xB0, true, 0⟩])) ∧
      (∀ e ∈ (readRoster (rosterOf 0xA0 9 [⟨5, 0xB0, true, 0⟩])).entries, e.serial ≠ (station .roll).serial) ∧
      ∃ e ∈ (readRoster (rosterOf 0xA0 9 [⟨5, 0xB0, true, 0⟩])).entries, e.id = (station .roll).stationId) ∧
      (RosterForm (readRoster fullRoster) ∧ (∀ e ∈ (readRoster fullRoster).entries, e.serial ≠ (station .roll).serial) ∧
        (∀ e ∈ (readRoster fullRoster).entries, e.id ≠ (station .roll).stationId) ∧ (readRoster fullRoster).count = 16 ∧
        ¬((station .roll).eligible = true ∧
          (station .roll).stationId.toNat < (readRoster fullRoster).originator.toNat)) := by
  refine ⟨⟨?_, by decide +kernel, by decide +kernel⟩, ?_, by decide +kernel, by decide +kernel, by decide +kernel,
    by decide +kernel⟩ <;>
  exact (RosterCell.goodForm_iff _).1 (by decide +kernel)

/-- An elected station that launched epoch 3. -/
def elected : State :=
  { station .roll with ring := { (station .roll).ring with elected := true, commitEpoch := 3 } }

theorem test_meets_CommitsThatEndAtTheStation :
    (station .roll).Hears ∧ ¬CommitForm (readCommit (cellOf kindCommit 3 [])) ∧
      CommitForm (readCommit (commitFrom 0xA1 [])) ∧ CommitForm (readCommit (commitFrom 0xA0 [])) ∧
      (readCommit (commitFrom 0xA1 [])).entries.head? = some ⟨3, 0xA1⟩ ∧
      (readCommit (commitFrom 0xA0 [])).entries.head? = some ⟨3, 0xA0⟩ ∧
      ¬((station .roll).ring.elected = true ∧
        (readCommit (commitFrom 0xA1 [])).epoch = (station .roll).ring.commitEpoch) ∧
      elected.ring.elected = true ∧ (station .roll).ring.elected = false ∧
      ∀ x ∈ (readCommit (commitFrom 0xA0 [])).entries, x.serial ≠ (station .roll).serial := by
  refine ⟨⟨rfl, rfl⟩, ?_, ?_, ?_, by decide +kernel, by decide +kernel, by decide +kernel, rfl, rfl, by decide +kernel⟩
  · intro h
    exact absurd h.2.1 (by decide +kernel)
  all_goals
    exact (CommitCell.goodForm_iff _).1 (by decide +kernel)

/-- The last of 16 places. -/
def longCommit : CellBytes := commitFrom 0xA0 (List.replicate 14 ⟨9, 0xB0⟩ ++ [⟨5, 0xA1⟩])

theorem test_meets_CommitThatListsTheStationMakesAMember :
    CommitForm (readCommit longCommit) ∧ (station .roll).ring.elected = false ∧
      ((readCommit longCommit).entries[15]?).map RosterEntry.serial = some (station .roll).serial ∧
      ∀ i < 15, ((readCommit longCommit).entries[i]?).map RosterEntry.serial ≠ some (station .roll).serial := by
  refine ⟨?_, rfl, by decide +kernel, by decide +kernel⟩
  exact (CommitCell.goodForm_iff _).1 (by decide +kernel)

theorem test_meets_OwnCommitMakesTheOrigin :
    elected.Hears ∧ elected.ring.state = .roll ∧ CommitForm (readCommit (commitFrom 0xA1 [])) ∧
      (readCommit (commitFrom 0xA1 [])).entries.head? = some ⟨3, 0xA1⟩ ∧ elected.serial = 0xA1 ∧
      (readCommit (commitFrom 0xA1 [])).epoch = elected.ring.commitEpoch := by
  refine ⟨⟨rfl, rfl⟩, rfl, ?_, by decide +kernel, rfl, by decide +kernel⟩
  exact (CommitCell.goodForm_iff _).1 (by decide +kernel)

/-- The lowest and the highest cause and reporter, and one beyond each. -/
theorem test_meets_HaltCellsAreAccepted :
    (station .roll).Hears ∧ member.Hears ∧ cellEpoch (haltOf 1 1 3) = member.epoch ∧ byteAt (haltOf 8 63 2) 5 = 8 ∧
      (∀ c ∈ [haltOf 1 1 3, haltOf 8 63 2], 1 ≤ (byteAt c 5).toNat ∧ (byteAt c 5).toNat ≤ 8 ∧
        1 ≤ (byteAt c 4).toNat ∧ (byteAt c 4).toNat ≤ 63) ∧
      ∀ c ∈ [haltOf 0 1 3, haltOf 9 63 3, haltOf 1 0 3, haltOf 1 64 3], ¬(1 ≤ (byteAt c 5).toNat ∧
        (byteAt c 5).toNat ≤ 8 ∧ 1 ≤ (byteAt c 4).toNat ∧ (byteAt c 4).toNat ≤ 63) := by
  unfold State.Hears
  decide +kernel

/-- A FRAME of epoch 3 at a member with nothing and with 4 cells to forward. -/
theorem frame_arrives (q : List CellBytes) :
    ({ member with tx := { member.tx with forward := q } }).FrameArrives (frameCell 3 10) := by
  refine ⟨⟨rfl, rfl⟩, rfl, rfl, ?_⟩
  show cellEpoch (frameCell 3 10) = member.epoch
  decide +kernel

/-- An origin whose FRAME may go: nothing outstanding, or entries of that frame alone. -/
theorem frame_launches (out : List OutEntry) (h : ∀ e ∈ out, e.state = .inFlight ∧ e.frame = 9) :
    (engine out (some 9) []).FrameLaunches 9 :=
  ⟨rfl, rfl, rfl, rfl, fun e he => (h e (List.mem_of_mem_head? he)).1, rfl, fun e he => (h e he).2⟩

theorem test_meets_FrameMarkIsTaken :
    member.FrameArrives (frameCell 3 10) ∧ member.tx.forward.length < 4 ∧
      ({ member with tx := { member.tx with forward := List.replicate 4 (frameCell 3 9) } }).FrameArrives
        (frameCell 3 10) ∧
      (engine [entry 15 1 0 .inFlight] (some 9) []).FrameLaunches 9 :=
  ⟨frame_arrives [], by decide, frame_arrives _, frame_launches _ (by decide)⟩

/-- The same two events make a FRAME mark, which the layers, the tap and the bulletin unit take. -/
theorem test_meets_FrameMarkMoves :
    member.MarkEvent (.frame (frameCell 3 10)) 10 member.heard ∧
      ∃ b, (engine [] (some 9) []).MarkEvent .departureOpportunity 9 b :=
  ⟨Or.inl ⟨_, rfl, frame_arrives [], by decide +kernel, rfl⟩, _, Or.inr ⟨rfl, frame_launches [] (by decide), rfl⟩⟩

/-- A layer of base 7 that gives marks 0 to 3 the four actions, its window one line of four columns from (2, 5). -/
def fourActions : ActiveEntry :=
  { setup := { setupFields 7 4 1 with x0 := 2, y0 := 5 }, current := 9 }

def fourPixels : Slot :=
  { line := 5, pixels := (List.finRange 4).map (fun m => ⟨⟨1, 2, 3⟩, m⟩), read := false }

/-- The four corners of the window, one position before and after each, and a store without the line. -/
theorem test_meets_CandidatesFormByMarkActionAndWindow :
    (fourActions.setup.base ≠ 0 ∧ (setupFields 0 1 1).base = 0) ∧
      (fourActions.setup.x0 ≤ 2 ∧ 5 < fourActions.setup.x0 + fourActions.setup.width ∧ fourActions.setup.y0 ≤ 5 ∧
        5 < fourActions.setup.y0 + fourActions.setup.height) ∧
      (1 < fourActions.setup.x0 ∧ fourActions.setup.x0 + fourActions.setup.width ≤ 6 ∧ 4 < fourActions.setup.y0 ∧
        fourActions.setup.y0 + fourActions.setup.height ≤ 6) ∧
      (∀ m : Fin 4, fourPixels.pixels[2 + m.val - fourActions.setup.x0]? = some ⟨⟨1, 2, 3⟩, m⟩) ∧
      (List.finRange 4).map fourActions.setup.marks.get = [.plain, .lift, .solid, .hole] ∧
      ∀ k ∈ [fourPixels], k.line ≠ 4 := by decide +kernel

/-- What the four marks give: LIFT stops at 7, SOLID covers 16, HOLE gives nothing. -/
theorem test_candidates_by_mark :
    (List.range 4).map (fun m => (formCandidate 5 (Four.all fourActions) (Four.all [fourPixels]) (2 + m) 5 1).map
        (fun c => (c.priority, c.cover, c.solid))) =
      [some (7, 9, false), some (7, 9, false), some (7, 16, true), none] := by decide +kernel

/-- Another frame, the first line and span beyond the picture, and the line before the current merge line. -/
theorem test_meets_MergeCellsOutOfPlacePassUnmerged :
    (member.Hears ∧ member.ring.state = .run ∧ member.ring.role = .member ∧
      cellEpoch (mergeOf 8 0 0) = member.epoch) ∧
      member.merge.lastTaken ≠ some (cellFrame (mergeOf 8 0 0)) ∧
      member.format.height ≤ cellLine (mergeOf 9 16 0) ∧ member.format.spans ≤ cellSpan (mergeOf 9 0 2) ∧
      (showing [2] (some 1)).source.mergeLine = some 1 ∧ cellLine (mergeOf 9 0 0) < 1 := by
  unfold State.Hears
  decide +kernel

/-- The last line and span, at the current merge line. -/
theorem test_meets_MergeCellsInPlaceAreMerged :
    member.merge.lastTaken = some (cellFrame (mergeOf 9 15 1)) ∧ cellLine (mergeOf 9 15 1) < member.format.height ∧
      cellSpan (mergeOf 9 15 1) < member.format.spans ∧
      ∀ l, (showing [] (some 15)).source.mergeLine = some l → l ≤ cellLine (mergeOf 9 15 1) := by
  refine ⟨by decide +kernel, by decide +kernel, by decide +kernel, ?_⟩
  intro l h
  cases h
  decide +kernel

theorem test_meets_ReturnsResolveTheirEntry :
    origin.Hears ∧ origin.ring.role = .origin ∧ origin.ring.committed = some (ringAt 0) ∧
      cellEpoch (mergeOf 9 2 0) = origin.epoch ∧
      (engine [entry 1 1 0 .lost, entry 2 0 0 .inFlight] none []).origin.outstanding =
        [entry 1 1 0 .lost] ++ entry 2 0 0 .inFlight :: [] ∧
      ((entry 2 0 0 .inFlight).state = .inFlight ∧ (entry 2 0 0 .inFlight).frame = (readMerge (mergeOf 9 2 0)).frame ∧
        (entry 2 0 0 .inFlight).line = (readMerge (mergeOf 9 2 0)).line ∧
        (entry 2 0 0 .inFlight).span = (readMerge (mergeOf 9 2 0)).span) ∧
      ∀ e ∈ origin.origin.outstanding, e.state ≠ .inFlight := by
  unfold State.Hears
  decide +kernel

theorem test_meets_ResultsReachTheTapAndGoOn :
    member.Hears ∧ member.ring.state = .run ∧ member.ring.role = .member ∧
      cellEpoch (resultCell 3 ⟨9, 0, 1, true, []⟩) = member.epoch := by
  unfold State.Hears
  decide +kernel

/-- The station's own bulletin, a peer's, and one of an ID that its position does not name. -/
theorem test_meets_BulletinsAreRetiredOrPassedOn :
    member.ring.committed = some (ringAt 1) ∧ cellEpoch (bulletinFrom 5 1) = (ringAt 1).epoch ∧
      bulletinPosition (bulletinFrom 5 1) = (ringAt 1).position ∧
      (bulletinPosition (bulletinFrom 3 0) ≠ (ringAt 1).position ∧
        ((ringAt 1).roster[bulletinPosition (bulletinFrom 3 0)]?).map RosterEntry.id =
          some (bulletinSender (bulletinFrom 3 0))) ∧
      ((ringAt 1).roster[bulletinPosition (bulletinFrom 4 2)]?).map RosterEntry.id ≠
        some (bulletinSender (bulletinFrom 4 2)) := by decide +kernel

theorem test_meets_ForwardHeadLeavesFirst :
    (station .dark).ring.state = .dark ∧ (station .dark).inReset = false ∧
      ((unlinked (station .relay)).ring.state = .relay ∧ (unlinked (station .relay)).rx.lock ≠ .locked) ∧
      ∀ st : RingState, ({ station st with tx := { (station st).tx with forward := [frameCell 3 9] } }).tx.forward =
        frameCell 3 9 :: [] := by
  refine ⟨rfl, rfl, ⟨rfl, by decide⟩, fun st => ?_⟩
  cases st <;> rfl

/-- Nothing of an engine without entries, lines or a ready FRAME can leave. -/
theorem origin_silent : origin.EngineSilent := by
  refine ⟨fun e he => ?_, fun f hf => ?_, fun h => absurd rfl h⟩
  · cases he
  · cases hf

/-- The launch head goes next in HALT, ROLL and both roles of RUN. -/
theorem halt_launchHeadNext (l : List LaunchCell) :
    ({ station .halt with tx := { (station .halt).tx with launch := l } }).LaunchHeadNext := ⟨rfl, Or.inl rfl⟩

theorem roll_launchHeadNext : (station .roll).LaunchHeadNext := by
  refine ⟨rfl, Or.inr (Or.inl ?_)⟩
  exact ⟨rfl, rfl⟩

theorem member_launchHeadNext (l : List LaunchCell) :
    ({ member with tx := { member.tx with launch := l } }).LaunchHeadNext := by
  refine ⟨rfl, Or.inr (Or.inr ?_)⟩
  exact ⟨rfl, rfl, fun h => by cases h⟩

theorem origin_launchHeadNext : origin.LaunchHeadNext := by
  refine ⟨rfl, Or.inr (Or.inr ?_)⟩
  exact ⟨rfl, rfl, fun _ => origin_silent⟩

/-- Each kind of launch head. -/
theorem test_meets_LaunchHeadLeaves : ∀ c : LaunchCell,
    ({ member with tx := { member.tx with launch := [c] } }).LaunchHeadNext ∧
      ({ member with tx := { member.tx with launch := [c] } }).tx.launch = c :: [] :=
  fun _ => ⟨member_launchHeadNext _, rfl⟩

/-- Probe fill with the launch queue empty, and in LISTEN and RELAY. -/
theorem test_meets_ProbesFillIdleTime :
    ((station .halt).ProbeNext ∧ (station .roll).ProbeNext ∧ member.ProbeNext ∧ origin.ProbeNext) ∧
      (station .listen).ProbeNext ∧ (station .relay).ProbeNext := by
  unfold State.ProbeNext
  refine ⟨⟨?_, ?_, ?_, ?_⟩, ?_, ?_⟩
  · exact Or.inl ⟨halt_launchHeadNext [], rfl⟩
  · exact Or.inl ⟨roll_launchHeadNext, rfl⟩
  · exact Or.inl ⟨member_launchHeadNext [], rfl⟩
  · exact Or.inl ⟨origin_launchHeadNext, rfl⟩
  · exact Or.inr (by left; decide)
  · exact Or.inr (by right; decide)

theorem test_meets_ResultsLeaveTheOrigin :
    origin.inReset = false ∧ origin.ring.state = .run ∧ origin.ring.committed = some (ringAt 0) ∧
      origin.tx.forward = [] ∧
      (engine [entry 1 1 0 .lost] none []).origin.outstanding = entry 1 1 0 .lost :: [] ∧
      (entry 1 1 0 .lost).state ≠ .inFlight ∧ (entry 1 1 0 (.resolved [])).state ≠ .inFlight := by decide

/-- The first line of the picture with 63 entries in flight. -/
theorem test_meets_MergeLaunchesLeaveTheOrigin :
    (∀ e, (engine (List.replicate 63 (entry 0 0 0 .inFlight)) none [15]).origin.outstanding.head? = some e →
        e.state = .inFlight) ∧
      (engine (List.replicate 63 (entry 0 0 0 .inFlight)) none [15]).origin.outstanding.length < 64 ∧
      origin.origin.readyFrame = none ∧ (engine [] none [15]).origin.lines = 15 :: [] ∧
      origin.origin.frameNumber = some 9 ∧ origin.merge.lastTaken = some 9 := by
  refine ⟨?_, by decide, rfl, rfl, rfl, rfl⟩
  intro e h
  cases h
  rfl

/-- The first expiry of an epoch and a later one; slots 7, 8 and height + 7. -/
theorem test_meets_FrameAndLineTimersPaceTheOrigin :
    origin.inReset = false ∧ origin.ring.committed = some (ringAt 0) ∧
      origin.origin.frameTimer = some { start := 0, next := 1 } ∧
      (∀ m, origin.origin.frameNumber = some m → (10 : Half) = m + 1) ∧
      ∀ k ∈ [7, 8, 23], ({ origin with origin := { origin.origin with lineSlot := some k } }).origin.lineSlot =
        some k := by
  refine ⟨rfl, rfl, rfl, ?_, by decide⟩
  intro m h
  cases h
  rfl

/-- The second and the third consecutive expiry. -/
theorem test_meets_LapLimitLosesTheOldestEntry :
    (engine [entry 0 0 0 .lost, entry 0 1 1 .inFlight] none []).origin.outstanding =
        [entry 0 0 0 .lost] ++ entry 0 1 1 .inFlight :: [] ∧
      (entry 0 1 1 .inFlight).state = .inFlight ∧ (∀ d ∈ [entry 0 0 0 .lost], d.state ≠ .inFlight) ∧
      origin.origin.lapCount ≠ 2 ∧
      ({ origin with origin := { origin.origin with lapCount := 2 } }).origin.lapCount = 2 := by decide

/-- One state in which all five timers run. -/
theorem test_meets_RingTimersExpire_and_HoldOff_and_Beacon :
    ∃ s : State, s.inReset = false ∧ s.ring.rosterTimer = some 1 ∧ s.ring.noOriginTimer = some 2 ∧
      s.ring.commitLimit = some 3 ∧ s.ring.state = .roll ∧ s.ring.elected = true ∧ s.ring.firstFrame = some 4 ∧
      s.ring.frameMissing = some 5 ∧ s.ring.holdOff = some 6 ∧ s.ring.beacon = some 7 ∧ s.ring.demotion = none ∧
      s.rx.lock = .locked ∧ s.checker.qualified = true ∧ s.ring.config = some cfg :=
  ⟨{ elected with
      ring := { elected.ring with
        rosterTimer := some 1, noOriginTimer := some 2, commitLimit := some 3, firstFrame := some 4
        frameMissing := some 5, holdOff := some 6, beacon := some 7 } },
    rfl, rfl, rfl, rfl, rfl, rfl, rfl, rfl, rfl, rfl, rfl, rfl, rfl, rfl⟩

/-- A commit limit that expires outside ROLL, and at a station that is not elected. -/
theorem test_meets_RingTimersExpire_commit_limit :
    ({ member.ring with commitLimit := some 3 }).commitLimit = some 3 ∧ member.ring.state ≠ .roll ∧
      (station .roll).ring.elected = false := by decide

theorem test_meets_HoldOffEndsInListenOrRelay :
    ∀ d : Demotion, ({ (station .halt).ring with holdOff := some 6, demotion := some d }).demotion = some d ∧
      ((station .halt).ring.demotion = none ∧ (unlinked (station .halt)).rx.lock ≠ .locked) := by
  intro d
  exact ⟨rfl, rfl, by decide⟩

/-- A setup at its bounds (base 7, 2048 × 1200), one of base 8, and a setup already waiting. -/
theorem test_meets_SetupsAreTakenOrRefused :
    WordsCarry (wordsOf (setupRecord 3 7 2048 1200)) (setupRecord 3 7 2048 1200) ∧
      WordsCarry (wordsOf (setupRecord 3 8 2048 1200)) (setupRecord 3 8 2048 1200) ∧
      SetupGiven (setupRecord 3 7 2048 1200) 3 (setupFields 7 2048 1200) ∧
      (¬∃ i u, SetupGiven (setupRecord 3 8 2048 1200) i u) ∧ (station .listen).ring.state ≠ .dark ∧
      (station .listen).ring.state ≠ .relay ∧ (station .relay).ring.state = .relay ∧
      ((station .listen).layers.shadow.get 3).pending = false ∧
      (((station .listen).layers.accept 3 (setupFields 7 2048 1200)).shadow.get 3).pending = true := by
  refine ⟨recordBytes_carried _, recordBytes_carried _, ?_, ?_, by decide, by decide, rfl, rfl, rfl⟩
  · unfold SetupGiven Setup.InRange
    decide +kernel
  · intro h
    rcases h with ⟨i, u, h⟩
    have hb : u.base = 8 := h.2.2.2.1.trans (by decide)
    have hr : u.base ≤ 7 := h.2.2.2.2.2.2.2.2.2.2.2.2.1
    omega

/-- A record of one pixel, and one whose length field does not fit. -/
theorem test_meets_LinesAreStoredOrRefused :
    WordsCarry (wordsOf (lineRecord 5)) (lineRecord 5) ∧
      WordsCarry ((wordsOf (lineRecord 5)).take 2) ((lineRecord 5).take 8) ∧
      (station .roll).ring.state ≠ .run ∧ member.ring.state = .run ∧ LineGiven (lineRecord 5) (lineFields 5) ∧
      (¬∃ l, LineGiven ((lineRecord 5).take 8) l) ∧
      ((showing [2, 3, 4] (some 1)).layers.active.get 1).setup.base ≠ 0 ∧
      (showing [2, 3, 4] (some 1)).source.mergeLine = some 1 := by
  refine ⟨recordBytes_carried _, recordBytes_carried _, by decide, rfl, ?_, ?_, by decide, rfl⟩
  · refine ⟨by decide, by decide, by decide, by decide, by decide, by decide, by decide, by decide, ?_⟩
    intro k p h
    cases k with
    | zero =>
      cases h
      exact ⟨rfl, by decide⟩
    | succ k => cases h
  · intro h
    rcases h with ⟨l, h⟩
    exact absurd h.1 (by decide)

/-- The seven refusals of a LINE record in RUN after MALFORMED, each at a boundary. -/
theorem test_meets_LineConditions :
    (member.layers.active.get 1).setup.base = 0 ∧ (lineFields 5).pixels.length = 1 ∧
      ((showing [] none).layers.active.get 1).setup.width = 1 ∧
      ((showing [] none).layers.active.get 1).setup.y0 + ((showing [] none).layers.active.get 1).setup.height - 1 <
        (lineFields 6).line ∧
      (lineFields 1).line ≤ 1 ∧ ((showing [2, 3, 4, 5] (some 1)).source.stores.get 1).length = 4 ∧
      ∃ k ∈ (showing [2, 3, 4, 5] (some 1)).source.stores.get 1, k.line = (lineFields 5).line := by
  refine ⟨rfl, rfl, rfl, by decide, by decide, rfl, ?_⟩
  exact ⟨{ line := 5, pixels := [⟨⟨10, 20, 30⟩, 2⟩], read := false }, by decide, rfl⟩

theorem test_meets_CuesAndTapRecordsLeaveInOrder :
    ({ member.source with cues := [⟨9, 0⟩] }).cues = ⟨9, 0⟩ :: [] ∧ member.source.cues = [] ∧ member.tap.queue = [] ∧
      ({ member.tap with queue := [.frameBegin 9 3 false] }).queue = .frameBegin 9 3 false :: [] := by decide

/-- A queue of 13 takes every record; one of 14 a FRAME_BEGIN only; one of 16 none. -/
theorem test_meets_TapQueueTakesOrDrops :
    ∀ n ∈ [13, 14, 16], ({ Tap.reset with queue := List.replicate n (.bulletin []) }).queue.length = n := by decide

/-- A candidate above the top, one between, one equal to the second, and an ordered pair. -/
theorem test_meets_InsertionFollowsPriority :
    ∃ (p : Pair) (a b c : Candidate), p.Ordered ∧ p.top.priority < a.priority ∧
      (b.priority ≤ p.top.priority ∧ p.second.priority < b.priority) ∧
      (c.priority ≤ p.top.priority ∧ c.priority ≤ p.second.priority) :=
  ⟨(Pair.empty.insert ⟨2, Colour.zero, 16, false, 1, 0⟩).insert ⟨4, Colour.zero, 16, false, 1, 1⟩,
    ⟨5, Colour.zero, 16, false, 1, 1⟩, ⟨4, Colour.zero, 16, false, 1, 1⟩, ⟨2, Colour.zero, 16, false, 1, 1⟩,
    by unfold Pair.Ordered; decide, by decide, by decide, by decide⟩

theorem test_meets_PairKeepsTheTwoStrongestOffers :
    ∀ c ∈ ([⟨1, Colour.zero, 16, false, 1, 0⟩, ⟨7, Colour.zero, 16, false, 1, 0⟩] : List Candidate),
      1 ≤ c.priority := by decide

/-- An empty top, a solid one and one that is blended, under the highest backdrop cover. -/
theorem test_meets_ResolveBlendsByTheWeightMode :
    ({ mode := .second, backdrop := Colour.zero, cover := 16 : BlendValues }).cover ≤ 16 ∧
      Pair.empty.top.priority = 0 ∧
      ((Pair.empty.insert ⟨1, Colour.zero, 255, true, 1, 0⟩).top.priority ≠ 0 ∧
        (Pair.empty.insert ⟨1, Colour.zero, 255, true, 1, 0⟩).top.solid = true) ∧
      (Pair.empty.insert ⟨1, Colour.zero, 255, false, 1, 0⟩).top.solid = false := by decide

/-- The widest values of each field. -/
theorem test_meets_SentCellsReadBack :
    (goodProbe 0).length = 336 ∧
      MergeCell.Fits { epoch := 255, frame := 0xFFFF, line := 65535, span := 255
                       pairs := List.replicate 32
                         { top := ⟨7, Colour.zero, 255, true, 255, 3⟩, second := ⟨7, Colour.zero, 31⟩ } } ∧
      ResultData.Fits ⟨0xFFFF, 65535, 255, true, List.replicate 32 Colour.zero⟩ ∧
      RosterCell.Fits ⟨63, 0xFFFFFFFF, 255, 16, List.replicate 16 ⟨63, 0xFFFFFFFF, true, 255⟩⟩ ∧
      CommitCell.Fits ⟨255, 63, ⟨255, 65535, 255⟩, 255, Colour.zero, 255, 16, List.replicate 16 ⟨63, 0xFFFFFFFF⟩⟩ ∧
      (1 ≤ (63 : Byte).toNat ∧ (63 : Byte).toNat ≤ 63) := by
  unfold MergeCell.Fits ResultData.Fits RosterCell.Fits CommitCell.Fits Pair.Fits
  decide +kernel

/-! ### States in RUN that keep the laws, with a command waiting -/

theorem test_meets_EveryStepKeepsTheRingLaw :
    State.RingLaw { member with pending := [.cueDeparts] } ∧ State.RingLaw { origin with pending := [.cueDeparts] } ∧
      step { member with pending := [.cueDeparts] } = .next member := by
  refine ⟨⟨⟨?_, ?_, ?_, ?_⟩, ?_, ?_⟩, ⟨⟨?_, ?_, ?_, ?_⟩, ?_, ?_⟩, rfl⟩
  · decide
  · intro c h
    cases h
    decide
  · decide
  · decide
  · unfold State.PinLaw
    decide
  · unfold State.PhaseLaw
    decide
  · decide
  · intro c h
    cases h
    decide
  · decide
  · decide
  · unfold State.PinLaw
    decide
  · unfold State.PhaseLaw
    decide

theorem test_meets_EveryStepKeepsTheLinkLaw :
    State.LinkLaw { member with pending := [.cueDeparts] } := by
  refine ⟨by decide, by decide, by decide, ?_, by decide, by decide⟩
  intro p h
  cases h
  decide

/-- An origin with every queue full, and each range at its highest value. -/
def fullOrigin : State :=
  { origin with
    loader := { origin.loader with state := .done, retry := 3 }
    source := { origin.source with cues := List.replicate 8 ⟨9, 0⟩, cueBegun := true }
    tx := { origin.tx with
      forward := List.replicate 4 [], launch := [.bulletin someBulletin, .commit (readCommit []), .halt []]
      probePosition := 126 }
    origin := { origin.origin with
      lines := [0, 1], outstanding := List.replicate 64 (entry 0 0 0 .inFlight), nextSpan := 1, lapCount := 2 } }

/-- An origin in the second line of frame 9, with spans of it and of frame 8 in flight, and the frame timer expiring. -/
def betweenFrames : State :=
  { engine [{ entry 15 1 0 .lost with frame := 8 }, entry 0 1 0 .inFlight, entry 1 0 0 .inFlight] none [1, 2] with
    pending := [.frameTimerExpiry]
    origin := { (engine [{ entry 15 1 0 .lost with frame := 8 }, entry 0 1 0 .inFlight, entry 1 0 0 .inFlight] none
      [1, 2]).origin with nextSpan := 1, lineSlot := some 11 } }

theorem fullOrigin_roster : fullOrigin.RosterLaw := by
  refine ⟨by decide, ?_, by decide, by decide⟩
  intro c h
  cases h
  decide

theorem test_meets_EveryStepKeepsTheQueueAndSpanLaws :
    (fullOrigin.RingLaw ∧ fullOrigin.QueueLaw) ∧ betweenFrames.SpanLaw ∧
      ∀ rest n, betweenFrames.pending = .frameTimerExpiry :: rest → betweenFrames.origin.frameNumber = some n →
        ∀ e ∈ betweenFrames.origin.outstanding, e.frame ≠ n + 1 := by
  refine ⟨⟨⟨fullOrigin_roster, ?_, ?_⟩, ?_⟩, ?_, ?_⟩
  · unfold State.PinLaw
    decide
  · unfold State.PhaseLaw
    decide
  · have bounds : fullOrigin.ring.committed = some (ringAt 0) := rfl
    unfold State.QueueLaw
    simp only [bounds, Option.some.injEq, forall_eq']
    decide
  · have frame : betweenFrames.origin.frameNumber = some 9 := rfl
    unfold State.SpanLaw
    simp only [frame, Option.some.injEq, forall_eq']
    refine ⟨by decide, by decide, by decide, ?_, ?_, ?_⟩
    · intro k h
      cases h
      decide
    · intro f h
      cases h
    · intro _ e he h
      refine ⟨?_, ?_⟩
      · intro y ys hy
        cases hy
        revert e
        decide
      · intro k hk
        cases hk
        revert e
        decide
  · intro rest n _ h
    cases h
    decide

/-- A full store above the current merge line, a full tap queue and full bounds. -/
theorem test_meets_EveryStepKeepsTheStoreTapAndLayerLaws :
    State.LineStoreLaw { showing [2, 3, 4, 5] (some 2) with pending := [.cueDeparts] } ∧
      State.TapLaw { member with
        tap := { member.tap with
          queue := List.replicate 14 (.bulletin []) ++ [.frameBegin 9 3 false, .haltNotice ⟨.lockLost, 5, 3⟩] } } ∧
      State.LayerLaw (showing [] none) := by
  refine ⟨?_, ⟨by decide, by decide⟩, ?_⟩
  · have empty : ∀ m, StoreLaw m [] := fun m => StoreLaw.nil m
    intro i
    fin_cases i
    · exact empty _
    · refine ⟨by decide, by decide, fun l hl m hm => ?_⟩
      cases hm
      revert l
      decide
    · exact empty _
    · exact empty _
  · unfold State.LayerLaw Setup.InRange
    decide

end Sys2Proof.Tests
end

section
/-! SUPPORT. The merge rule's proofs: each case of insertion (R10) and of resolve (R14 to R16), stated once. -/
namespace Sys2Proof.Machine

/-! ## Insertion -/

section
variable {p : Pair} {c : Candidate}

theorem Pair.insert_of_takesTop (h : p.top.priority < c.priority) :
    p.insert c = { top := c, second := p.top.asSecond } := if_pos h

theorem Pair.insert_of_takesSecond (hTop : c.priority ≤ p.top.priority) (hSecond : p.second.priority < c.priority) :
    p.insert c = { p with second := c.asSecond } := by
  rw [Pair.insert, if_neg (Nat.not_lt.2 hTop), if_pos hSecond]

theorem Pair.insert_of_noPlace (hTop : c.priority ≤ p.top.priority) (hSecond : c.priority ≤ p.second.priority) :
    p.insert c = p := by
  rw [Pair.insert, if_neg (Nat.not_lt.2 hTop), if_neg (Nat.not_lt.2 hSecond)]

/-- R11's second reason: what moves into the second never outranks the top it stands under. -/
theorem Pair.Ordered.insert (h : p.Ordered) (c : Candidate) : (p.insert c).Ordered := by
  rcases Nat.lt_or_ge p.top.priority c.priority with hTop | hTop
  · rw [Pair.insert_of_takesTop hTop]
    exact hTop.le
  · rcases Nat.lt_or_ge p.second.priority c.priority with hSecond | hSecond
    · rw [Pair.insert_of_takesSecond hTop hSecond]
      exact hTop
    · rwa [Pair.insert_of_noPlace hTop hSecond]

/-- R11's first reason: a pair is launched in order. -/
theorem Pair.empty_ordered : Pair.empty.Ordered := Nat.le_refl 0

end

/-- Settles O50, by the three cases of R10. -/
theorem insertionFollowsPriority : Obligations.InsertionFollowsPriority := by
  intro p c
  refine ⟨fun hTop => ?_, fun hTop hSecond => ?_, Pair.insert_of_noPlace, fun h => h.insert c, Pair.empty_ordered⟩
  · rw [Pair.insert_of_takesTop hTop]
    exact ⟨rfl, rfl⟩
  · rw [Pair.insert_of_takesSecond hTop hSecond]
    exact ⟨rfl, rfl⟩

/-! ## The blend -/

/-- R16's bound: two bytes weighted by `c` and `16 - c` give a byte again, so nothing is cut off. -/
theorem blendComponent_toNat {c : Nat} (hc : c ≤ 16) (t o : Byte) :
    (blendComponent c t o).toNat = (c * t.toNat + (16 - c) * o.toNat + 8) / 16 := by
  have hsum : c * t.toNat + (16 - c) * o.toNat ≤ 16 * 255 :=
    calc c * t.toNat + (16 - c) * o.toNat
        ≤ c * 255 + (16 - c) * 255 :=
          Nat.add_le_add (Nat.mul_le_mul_left _ (by omega)) (Nat.mul_le_mul_left _ (by omega))
      _ = 16 * 255 := by rw [← Nat.add_mul, Nat.add_sub_cancel' hc]
  rw [blendComponent, BitVec.toNat_ofNat]
  exact Nat.mod_eq_of_lt (by omega)

/-! ## Resolve -/

section
variable {v : BlendValues} {p : Pair}

/-- R15: the other colour is the second's, or the backdrop's where there is no second, in either mode. -/
theorem blendOf_other : (blendOf v p).2 = if p.second.priority = 0 then v.backdrop else p.second.colour := by
  cases hMode : v.mode <;> cases hSecond : p.second.priority <;> simp [blendOf, hMode, hSecond]

theorem blendOf_cover_of_top (hMode : v.mode = .top) : (blendOf v p).1 = min p.top.cover 16 := by
  cases hSecond : p.second.priority <;> simp [blendOf, hMode, hSecond]

theorem blendOf_cover_of_second (hMode : v.mode = .second) :
    (blendOf v p).1 = if p.second.priority = 0 then v.cover else min p.second.cover 16 := by
  cases hSecond : p.second.priority <;> simp [blendOf, hMode, hSecond]

theorem blendOf_cover_le (hCover : v.cover ≤ 16) : (blendOf v p).1 ≤ 16 := by
  cases hMode : v.mode with
  | top =>
    rw [blendOf_cover_of_top hMode]
    exact Nat.min_le_right _ _
  | second =>
    rw [blendOf_cover_of_second hMode]
    split
    · exact hCover
    · exact Nat.min_le_right _ _

theorem resolve_of_empty (hTop : p.top.priority = 0) : resolve v p = v.backdrop := if_pos hTop

theorem resolve_of_solid (hTop : p.top.priority ≠ 0) (hSolid : p.top.solid = true) : resolve v p = p.top.colour := by
  rw [resolve, if_neg hTop, if_pos hSolid]

theorem resolve_of_blend (hTop : p.top.priority ≠ 0) (hSolid : p.top.solid = false) :
    resolve v p = blend (blendOf v p).1 p.top.colour (blendOf v p).2 := by
  rw [resolve, if_neg hTop, if_neg (by simp [hSolid])]

end

/-- Settles O52: the cover and the other colour are those of R15, the cover is at most 16, and R16's bound gives
each component. -/
theorem resolveBlendsByTheWeightMode : Obligations.ResolveBlendsByTheWeightMode := by
  intro v p c o hCover hc ho
  have cover_eq : (blendOf v p).1 = c := by
    cases hMode : v.mode with
    | top =>
      rw [hMode] at hc
      exact (blendOf_cover_of_top hMode).trans hc.symm
    | second =>
      rw [hMode] at hc
      exact (blendOf_cover_of_second hMode).trans hc.symm
  have other_eq : (blendOf v p).2 = o := blendOf_other.trans ho.symm
  have c_le : c ≤ 16 := cover_eq ▸ blendOf_cover_le hCover
  refine ⟨resolve_of_empty, resolve_of_solid, fun hTop hSolid => ?_⟩
  rw [resolve_of_blend hTop hSolid, cover_eq, other_eq]
  exact ⟨blendComponent_toNat c_le _ _, blendComponent_toNat c_le _ _, blendComponent_toNat c_le _ _⟩

end Sys2Proof.Machine
end

section
/-! SUPPORT. The operations that leave the source port and line stores as they stand, each said once. -/
namespace Sys2Proof.Machine

/-! ## Tap and queues -/

@[simp] theorem State.tapResult_source (s : State) (d : ResultData) : (s.tapResult d).source = s.source := by
  obtain ⟨v, hv, _⟩ := s.tapResult_tap d
  rw [hv, State.setTap_source]

@[simp] theorem State.tapAtMark_source (s before : State) (frame : Half) :
    (s.tapAtMark before frame).source = s.source := rfl

@[simp] theorem State.forward_source (s : State) (c : CellBytes) : (s.forward c).source = s.source := by
  obtain ⟨fw, n, hq, _⟩ := s.forward_tx c
  rw [hq, State.setTx_source]

@[simp] theorem State.flushForward_source (s : State) : s.flushForward.source = s.source := rfl

@[simp] theorem State.dropRoster_source (s : State) : s.dropRoster.source = s.source := rfl

@[simp] theorem State.send_source (s : State) (c : CellBytes) : (s.send c).source = s.source := rfl

@[simp] theorem State.sendProbe_source (s : State) : s.sendProbe.source = s.source := rfl

/-! ## Bulletins -/

@[simp] theorem State.bulletinAtMark_source (s before : State) (frame : Half) :
    (s.bulletinAtMark before frame).source = s.source := by
  obtain ⟨bu, q, n, hb, _⟩ := s.bulletinAtMark_shape before frame
  rw [hb, State.setBulletin_source, State.setTx_source, State.setFreeCount_source]

@[simp] theorem State.bulletinDeparts_source (s : State) (b : Bulletin) : (s.bulletinDeparts b).source = s.source := by
  unfold State.bulletinDeparts
  dsimp only
  split <;> rfl

@[simp] theorem State.launchDeparts_source (s : State) (c : LaunchCell) : (s.launchDeparts c).source = s.source := by
  cases c with
  | roster r => rfl
  | commit c => rfl
  | halt c => rfl
  | bulletin b => exact s.bulletinDeparts_source b

@[simp] theorem State.bulletinArrives_source (s : State) (c : CellBytes) :
    (s.bulletinArrives c).source = s.source := by
  unfold State.bulletinArrives
  split
  · split <;> rfl
  · split
    · exact State.forward_source _ c
    · rfl

/-! ## Receiver, checker and timers -/

@[simp] theorem State.validBoundary_source (s : State) : s.validBoundary.source = s.source := rfl

@[simp] theorem State.clearFrameErrors_source (s : State) : s.clearFrameErrors.source = s.source := rfl

@[simp] theorem State.countStale_source (s : State) : s.countStale.source = s.source := rfl

@[simp] theorem State.ringAtMark_source (s : State) : s.ringAtMark.source = s.source := by
  unfold State.ringAtMark
  split <;> rfl

@[simp] theorem State.faultInHoldOff_source (s : State) : s.faultInHoldOff.source = s.source := rfl

@[simp] theorem State.drivePins_source (s : State) : s.drivePins.source = s.source := rfl

/-! ## Entry to LISTEN, ROLL, RELAY and RUN -/

@[simp] theorem State.enterRoll_source (s : State) : s.enterRoll.source = s.source := by
  unfold State.enterRoll
  dsimp only
  split <;> rfl

@[simp] theorem State.tryRoll_source (s : State) : s.tryRoll.source = s.source := by
  unfold State.tryRoll
  split
  · exact s.enterRoll_source
  · rfl

@[simp] theorem State.returnToListen_source (s : State) : s.returnToListen.source = s.source := rfl

@[simp] theorem State.enterRun_source (s : State) (role : Role) (c : Committed) (firstFrame : Timer) :
    (s.enterRun role c firstFrame).source = s.source := by
  simp [State.enterRun]

@[simp] theorem State.darkToRelay_source (s : State) (cause : RelayCause) :
    (s.darkToRelay cause).source = s.source := rfl

@[simp] theorem State.darkToListen_source (s : State) (c : ConfigCopy) : (s.darkToListen c).source = s.source :=
  State.tryRoll_source _

/-! ## ROSTER and COMMIT -/

@[simp] theorem State.rosterHeard_source (s : State) : s.rosterHeard.source = s.source := by
  unfold State.rosterHeard
  split <;> rfl

@[simp] theorem State.elect_source (s : State) (r : RosterCell) : (s.elect r).source = s.source := by
  unfold State.elect
  split <;> rfl

@[simp] theorem State.joinAsMember_source (s : State) (cell : CellBytes) (c : CommitCell) (position : Nat) :
    (s.joinAsMember cell c position).source = s.source := by
  rw [State.joinAsMember, State.enterRun_source, State.forward_source]

@[simp] theorem State.ownCommitReturns_source (s : State) (c : CommitCell) :
    (s.ownCommitReturns c).source = s.source := by
  unfold State.ownCommitReturns
  split
  · rw [State.setOrigin_source, State.enterRun_source]
  · rfl

/-! ## Whole commands -/

@[simp] theorem State.releaseReset_source (s : State) (strap : Bool) : (s.releaseReset strap).source = s.source := by
  unfold State.releaseReset
  split
  · split
    · exact State.darkToRelay_source _ _
    · rfl
  · rfl

@[simp] theorem State.attemptFails_source (s : State) (phase : AttemptPhase) :
    (s.attemptFails phase).source = s.source := by
  unfold State.attemptFails
  split
  · split
    · rfl
    · exact State.darkToRelay_source _ _
  · rfl

@[simp] theorem State.attemptSucceeds_source (s : State) (image : List Byte) :
    (s.attemptSucceeds image).source = s.source := by
  unfold State.attemptSucceeds
  split
  · split
    · exact State.darkToRelay_source _ _
    · exact State.darkToListen_source _ _
  · rfl

@[simp] theorem State.retryExpires_source (s : State) : s.retryExpires.source = s.source := by
  unfold State.retryExpires
  split <;> rfl

@[simp] theorem State.activity_source (s : State) : s.activity.source = s.source := by
  unfold State.activity
  split <;> rfl

@[simp] theorem State.aligningSilent_source (s : State) : s.aligningSilent.source = s.source := by
  unfold State.aligningSilent
  split <;> rfl

@[simp] theorem State.gainLock_source (s : State) : s.gainLock.source = s.source := by
  unfold State.gainLock
  split
  · exact State.tryRoll_source _
  · rfl

@[simp] theorem State.unknownArrives_source (s : State) (c : CellBytes) : (s.unknownArrives c).source = s.source := by
  unfold State.unknownArrives
  cases s.ring.state with
  | relay => exact s.forward_source c
  | dark | listen | roll | run | halt => rfl

@[simp] theorem State.frameTimerExpires_source (s : State) : s.frameTimerExpires.source = s.source := by
  unfold State.frameTimerExpires
  split <;> rfl

@[simp] theorem State.lineSlotExpires_source (s : State) : s.lineSlotExpires.source = s.source := by
  unfold State.lineSlotExpires
  split <;> rfl

@[simp] theorem State.rosterTimerExpires_source (s : State) : s.rosterTimerExpires.source = s.source := by
  unfold State.rosterTimerExpires
  split <;> rfl

@[simp] theorem State.noOriginExpires_source (s : State) : s.noOriginExpires.source = s.source := by
  unfold State.noOriginExpires
  split <;> rfl

@[simp] theorem State.holdOffExpires_source (s : State) : s.holdOffExpires.source = s.source := by
  unfold State.holdOffExpires
  split
  · rfl
  · dsimp only
    split
    · rfl
    · exact State.tryRoll_source _

@[simp] theorem State.beaconExpires_source (s : State) : s.beaconExpires.source = s.source := by
  unfold State.beaconExpires
  split <;> rfl

@[simp] theorem State.tapLeaves_source (s : State) (ready : Bool) : (s.tapLeaves ready).source = s.source := by
  unfold State.tapLeaves
  split <;> rfl

end Sys2Proof.Machine
end

section
/-! SUPPORT. The line store law (R53) through the operations of the source port, the halts and each command. A
line-begun event and a FRAME mark move the merge line (R49, R52), a halt clears it (R61), a LINE record adds a slot
(R47); the rest leaves the merge line and the line numbers alone. -/
namespace Sys2Proof.Machine

/-! ## The work a member and the origin share on a span -/

/-- A span of a line that has begun: its reads, the cue of a line start, the end of a line (R67, R68, R84). -/
def State.spanMerged (s : State) (span y : Nat) : State :=
  let read := s.readStores span y
  let cued := if span = 0 then read.lineStartCue y else read
  if span + 1 = cued.format.spans then cued.lineEnded y else cued

theorem State.mergeCell_state (s : State) (m : MergeCell) :
    (s.mergeCell m).2 = (s.beginLine m.line).spanMerged m.span m.line := rfl

theorem State.launchMerge_source (s : State) (y : Nat) :
    (s.launchMerge y).source =
      ((if s.origin.nextSpan = 0 then s.lineBegun y else s).spanMerged s.origin.nextSpan y).source := rfl

section
variable {s t : State}

/-! ## What the law looks at -/

/-- The law looks at the merge line and at the line numbers in the stores, at nothing else. -/
theorem State.LineStoreLaw.of_lines (h : s.LineStoreLaw) (hm : t.source.mergeLine = s.source.mergeLine)
    (hl : ∀ i, (t.source.stores.get i).map Slot.line = (s.source.stores.get i).map Slot.line) : t.LineStoreLaw :=
  fun i => StoreLaw.of_lines (hl i) (hm ▸ h i)

theorem State.LineStoreLaw.of_source (h : s.LineStoreLaw) (hs : t.source = s.source) : t.LineStoreLaw :=
  h.of_lines (by rw [hs]) fun i => by rw [hs]

theorem State.lineStoreLaw_of_empty (h : ∀ i, s.source.stores.get i = []) : s.LineStoreLaw :=
  fun i => h i ▸ StoreLaw.nil _

theorem State.LineStoreLaw.ite {c : Prop} [Decidable c] (hs : s.LineStoreLaw) (ht : t.LineStoreLaw) :
    (if c then s else t).LineStoreLaw := by
  split
  · exact hs
  · exact ht

/-! ## Operations of the source port -/

theorem State.LineStoreLaw.refuse (h : s.LineStoreLaw) (r : Reason) (n : Nat) : (s.refuse r n).LineStoreLaw := by
  rw [State.refuse_eq]
  exact h.of_lines rfl fun _ => rfl

/-- The slots below the new merge line are released as it moves there (R49), from wherever it stood. -/
theorem State.LineStoreLaw.lineBegun (h : s.LineStoreLaw) (y : Nat) : (s.lineBegun y).LineStoreLaw := by
  obtain ⟨v, hv, merge, stores, _⟩ := s.lineBegun_source y
  intro i
  rw [hv, State.setSource_source, merge, stores, Four.get_map]
  refine (h i).release _ fun l hl m hm => ?_
  cases hm
  simpa using (List.mem_filter.1 hl).2

theorem State.LineStoreLaw.lineEnded (h : s.LineStoreLaw) (y : Nat) : (s.lineEnded y).LineStoreLaw := by
  obtain ⟨v, hv, merge, stores, _⟩ := s.lineEnded_source y
  intro i
  obtain ⟨_, _, above⟩ := h i
  rw [hv, State.setSource_source, merge, stores, Four.get_map]
  exact (h i).release _ fun l hl => above l (List.mem_of_mem_filter hl)

theorem State.LineStoreLaw.lineStartCue (h : s.LineStoreLaw) (y : Nat) : (s.lineStartCue y).LineStoreLaw := by
  obtain ⟨cues, hc, _⟩ := s.lineStartCue_source y
  rw [hc]
  exact h.of_lines rfl fun _ => rfl

theorem State.LineStoreLaw.readStores (h : s.LineStoreLaw) (span y : Nat) : (s.readStores span y).LineStoreLaw := by
  obtain ⟨stores, missedLines, missed, hr, sameLines⟩ := s.readStores_source span y
  rw [hr]
  exact h.of_lines rfl sameLines

theorem State.LineStoreLaw.beginLine (h : s.LineStoreLaw) (y : Nat) : (s.beginLine y).LineStoreLaw :=
  h.ite (h.lineBegun y)

theorem State.LineStoreLaw.spanMerged (h : s.LineStoreLaw) (span y : Nat) : (s.spanMerged span y).LineStoreLaw := by
  have read := h.readStores span y
  have cued := (read.lineStartCue y).ite (c := span = 0) read
  exact (cued.lineEnded y).ite cued

theorem State.lineStoreLaw_sourceAtMark (s : State) : s.sourceAtMark.LineStoreLaw := by
  obtain ⟨v, hv, _, _, stores, _⟩ := s.sourceAtMark_source
  refine State.lineStoreLaw_of_empty fun i => ?_
  rw [hv, State.setSource_source, stores, Four.get_map, releaseOf_true]

theorem State.LineStoreLaw.layersAtMark (h : s.LineStoreLaw) (first : Bool) : (s.layersAtMark first).LineStoreLaw := by
  obtain ⟨layers, n, hl, _⟩ := s.layersAtMark_shape first
  rw [hl]
  exact State.LineStoreLaw.refuse (h.of_source (State.setLayers_source s layers)) _ n

/-- A FRAME mark empties every store (R52), and no owner that acts after the source port touches one (R63). -/
theorem State.lineStoreLaw_takeFrameMark (s : State) (frame : Half) : (s.takeFrameMark frame).LineStoreLaw := by
  have marked := (s.setMerge { s.merge with lastTaken := some frame }).lineStoreLaw_sourceAtMark.layersAtMark
    s.merge.lastTaken.isNone
  exact marked.of_source (by simp [State.takeFrameMark])

/-- What R43 leaves standing when none of its refusals applies. -/
theorem State.lineRefusal_eq_none {l : LineRecord} (h : s.lineRefusal l = none) :
    (s.source.stores.get l.layer).length ≠ 4 ∧ (∀ k ∈ s.source.stores.get l.layer, k.line ≠ l.line) ∧
      ∀ m, s.source.mergeLine = some m → m < l.line := by
  unfold State.lineRefusal at h
  dsimp only at h
  split_ifs at h with hBase hShape hOutside hLate hDuplicate hFull
  refine ⟨hFull, fun k hk same => ?_, fun m hm => ?_⟩
  · exact hDuplicate (List.any_eq_true.2 ⟨k, hk, beq_iff_eq.2 same⟩)
  · rw [hm] at hLate
    simpa using hLate

theorem State.LineStoreLaw.storeLine (h : s.LineStoreLaw) {l : LineRecord} (hl : s.lineRefusal l = none) :
    (s.storeLine l).LineStoreLaw := by
  obtain ⟨room, fresh, late⟩ := State.lineRefusal_eq_none hl
  intro i
  rw [State.storeLine, State.setSource_source]
  by_cases hi : i = l.layer
  · subst hi
    rw [Four.get_set_same]
    exact (h _).store _ room fresh late
  · rw [Four.get_set_other _ _ _ _ hi]
    exact h i

/-! ## Halts and notices -/

/-- Entry to HALT empties every store (R61). -/
theorem State.lineStoreLaw_enterHalt (s : State) (r : HaltRecord) (cell : CellBytes) :
    (s.enterHalt r cell).LineStoreLaw := by
  have entered := s.enterHalt_entered r cell
  intro i
  rw [entered.source]
  fin_cases i <;> exact StoreLaw.nil none

theorem State.lineStoreLaw_raiseHalt (s : State) (cause : HaltCause) (epoch : Byte) :
    (s.raiseHalt cause epoch).LineStoreLaw :=
  s.lineStoreLaw_enterHalt _ _

theorem State.LineStoreLaw.lockLostNotice (h : s.LineStoreLaw) : s.lockLostNotice.LineStoreLaw := by
  unfold State.lockLostNotice
  cases s.ring.state with
  | dark | listen => exact h
  | roll => exact h.of_source s.returnToListen_source
  | run => exact s.lineStoreLaw_raiseHalt _ _
  | halt => exact h.of_source s.faultInHoldOff_source
  | relay => exact h.of_source s.flushForward_source

theorem State.LineStoreLaw.syncLostNotice (h : s.LineStoreLaw) : s.syncLostNotice.LineStoreLaw := by
  unfold State.syncLostNotice
  cases s.ring.state with
  | dark | listen | relay => exact h
  | roll => exact h.of_source s.returnToListen_source
  | run => exact s.lineStoreLaw_raiseHalt _ _
  | halt => exact h.of_source s.faultInHoldOff_source

theorem State.LineStoreLaw.degradeTest (h : s.LineStoreLaw) (before : State) : (s.degradeTest before).LineStoreLaw :=
  (s.lineStoreLaw_raiseHalt _ _).ite h

/-! ## The arrival of a cell -/

theorem State.LineStoreLaw.live (h : s.LineStoreLaw) {f : State → State}
    (keeps : ∀ u : State, u.LineStoreLaw → (f u).LineStoreLaw) : (s.live f).LineStoreLaw :=
  h.ite (keeps s h)

/-- A command that never touches the source port (R176). -/
theorem State.LineStoreLaw.live_of_source (h : s.LineStoreLaw) {f : State → State}
    (same : ∀ u, (f u).source = u.source) : (s.live f).LineStoreLaw :=
  h.live fun u hu => hu.of_source (same u)

theorem State.LineStoreLaw.arrive (h : s.LineStoreLaw) {f : State → State}
    (keeps : ∀ u : State, u.LineStoreLaw → (f u).LineStoreLaw) : (s.arrive f).LineStoreLaw :=
  h.live fun u hu => (keeps _ (hu.of_source u.validBoundary_source)).ite hu

theorem State.LineStoreLaw.forward (h : s.LineStoreLaw) (c : CellBytes) : (s.forward c).LineStoreLaw :=
  h.of_source (s.forward_source c)

theorem State.LineStoreLaw.filterPicture (h : s.LineStoreLaw) (c : CellBytes) {member origin : State → State}
    (hm : (member s).LineStoreLaw) (ho : (origin s).LineStoreLaw) :
    (s.filterPicture c member origin).LineStoreLaw := by
  unfold State.filterPicture
  cases s.ring.state with
  | dark | listen | roll | halt => exact h
  | relay => exact h.forward c
  | run => exact (h.of_source s.countStale_source).ite (ho.ite hm)

/-! ## Commands of the receiver and the link checker -/

theorem State.LineStoreLaw.loseLock (h : s.LineStoreLaw) (active : Bool) : (s.loseLock active).LineStoreLaw := by
  unfold State.loseLock
  cases s.rx.lock with
  | noSignal | aligning => exact h
  | locked => exact State.LineStoreLaw.lockLostNotice (h.of_source rfl)

theorem State.LineStoreLaw.countCellError (h : s.LineStoreLaw) : s.countCellError.LineStoreLaw :=
  State.LineStoreLaw.degradeTest (h.of_source (s.setFilter_source _)) s

theorem State.LineStoreLaw.cellFails (h : s.LineStoreLaw) (kind : CellErrorKind) : (s.cellFails kind).LineStoreLaw := by
  unfold State.cellFails
  split
  · exact h.countCellError
  · exact (h.of_source s.validBoundary_source).countCellError
  · exact h
  · exact h

theorem State.LineStoreLaw.syncLost (h : s.LineStoreLaw) (before : State) : (s.syncLost before).LineStoreLaw := by
  have lost : ∀ u : State, u.LineStoreLaw → (u.setChecker u.checker.loseSync).syncLostNotice.LineStoreLaw :=
    fun u hu => State.LineStoreLaw.syncLostNotice (hu.of_source (u.setChecker_source _))
  exact ((lost _ (State.lineStoreLaw_raiseHalt _ _ _)).ite (lost _ (h.of_source (s.setFreeCount_source _)))).ite
    (lost s h)

theorem State.LineStoreLaw.probeSynced (h : s.LineStoreLaw) (previous start : Nat) (arrived : List Byte) :
    (s.probeSynced previous start arrived).LineStoreLaw := by
  have checked := h.of_source
    (s.setChecker_source (s.checker.checked previous start arrived s.merge.lastTaken))
  exact (checked.syncLost s).ite ((checked.of_source (State.tryRoll_source _)).ite (checked.degradeTest s))

theorem State.LineStoreLaw.probeArrives (h : s.LineStoreLaw) (c : CellBytes) : (s.probeArrives c).LineStoreLaw := by
  unfold State.probeArrives
  split
  · exact h.probeSynced _ _ _
  · exact h.of_source (s.setChecker_source _)

/-! ## Commands of the ring controller's cells -/

theorem State.LineStoreLaw.rosterInRoll (h : s.LineStoreLaw) (c : CellBytes) : (s.rosterInRoll c).LineStoreLaw := by
  have heard := h.of_source s.rosterHeard_source
  unfold State.rosterInRoll
  dsimp only
  refine State.LineStoreLaw.ite ?_ h
  cases s.rosterHeard.rosterCase (readRoster c) with
  | superseded | stale | outranked => exact heard
  | elected => exact heard.of_source (State.elect_source _ _)
  | duplicateId | ringTooLong => exact State.lineStoreLaw_raiseHalt _ _ _
  | append => exact heard.forward _

theorem State.LineStoreLaw.rosterArrives (h : s.LineStoreLaw) (c : CellBytes) : (s.rosterArrives c).LineStoreLaw := by
  unfold State.rosterArrives
  cases s.ring.state with
  | dark | listen | run | halt => exact h
  | roll => exact h.rosterInRoll c
  | relay => exact h.forward c

theorem State.LineStoreLaw.commitInRoll (h : s.LineStoreLaw) (c : CellBytes) : (s.commitInRoll c).LineStoreLaw := by
  unfold State.commitInRoll
  dsimp only
  refine State.LineStoreLaw.ite ((h.of_source (s.ownCommitReturns_source _)).ite (h.ite ?_)) h
  split
  · exact h.of_source (s.joinAsMember_source _ _ _)
  · exact s.lineStoreLaw_raiseHalt _ _

theorem State.LineStoreLaw.commitArrives (h : s.LineStoreLaw) (c : CellBytes) : (s.commitArrives c).LineStoreLaw := by
  unfold State.commitArrives
  cases s.ring.state with
  | dark | listen | run | halt => exact h
  | roll => exact h.commitInRoll c
  | relay => exact h.forward c

theorem State.LineStoreLaw.acceptHalt (h : s.LineStoreLaw) (c : CellBytes) : (s.acceptHalt c).LineStoreLaw := by
  unfold State.acceptHalt
  split
  · exact h
  · exact s.lineStoreLaw_enterHalt _ c

theorem State.LineStoreLaw.haltArrives (h : s.LineStoreLaw) (c : CellBytes) : (s.haltArrives c).LineStoreLaw := by
  unfold State.haltArrives
  cases s.ring.state with
  | dark | listen | halt => exact h
  | roll => exact h.acceptHalt c
  | run => exact (h.acceptHalt c).ite h
  | relay => exact h.forward c

/-! ## Commands of the picture's cells and the departure opportunity -/

theorem State.LineStoreLaw.mergeAtMember (h : s.LineStoreLaw) (c : CellBytes) : (s.mergeAtMember c).LineStoreLaw := by
  have passedOn : ((s.setMerge { s.merge with mismatch := satInc s.merge.mismatch }).forward c).LineStoreLaw :=
    State.LineStoreLaw.forward (h.of_source (s.setMerge_source _)) c
  have merged : (s.mergeCell (readMerge c)).2.LineStoreLaw := by
    rw [State.mergeCell_state]
    exact (h.beginLine _).spanMerged _ _
  exact passedOn.ite (merged.forward _)

theorem State.LineStoreLaw.resultAtMember (h : s.LineStoreLaw) (c : CellBytes) : (s.resultAtMember c).LineStoreLaw :=
  State.LineStoreLaw.forward (h.of_source (s.tapResult_source _)) c

theorem State.LineStoreLaw.launchMerge (h : s.LineStoreLaw) (y : Nat) : (s.launchMerge y).LineStoreLaw := by
  have begun := (h.lineBegun y).ite (c := s.origin.nextSpan = 0) h
  exact (begun.spanMerged s.origin.nextSpan y).of_source (s.launchMerge_source y)

theorem State.LineStoreLaw.depart (h : s.LineStoreLaw) (d : Departure) : (s.depart d).LineStoreLaw := by
  cases d with
  | silent => exact h.of_source (s.setTx_source _)
  | forward c rest => exact h.of_source (s.setTx_source _)
  | result e rest => exact h.of_source (State.tapResult_source _ _)
  | frame n => exact State.LineStoreLaw.of_source (State.lineStoreLaw_takeFrameMark _ n) (State.send_source _ _)
  | merge y => exact h.launchMerge y
  | launch c rest => exact h.of_source (State.launchDeparts_source _ c)
  | probe => exact h.of_source s.sendProbe_source

theorem State.LineStoreLaw.opportunity (h : s.LineStoreLaw) : s.opportunity.LineStoreLaw :=
  State.LineStoreLaw.depart (h.of_source (s.setNow_source _)) _

/-! ## Commands of the timers -/

theorem State.LineStoreLaw.lapLimitExpires (h : s.LineStoreLaw) : s.lapLimitExpires.LineStoreLaw := by
  unfold State.lapLimitExpires
  split
  · exact h
  · exact (State.lineStoreLaw_raiseHalt _ _ _).ite (h.of_source rfl)

theorem State.LineStoreLaw.commitLimitExpires (h : s.LineStoreLaw) : s.commitLimitExpires.LineStoreLaw := by
  unfold State.commitLimitExpires
  split
  · exact h
  · exact (State.lineStoreLaw_raiseHalt _ _ _).ite (h.of_source rfl)

theorem State.LineStoreLaw.firstFrameExpires (h : s.LineStoreLaw) : s.firstFrameExpires.LineStoreLaw := by
  unfold State.firstFrameExpires
  split
  · exact h
  · exact State.lineStoreLaw_raiseHalt _ _ _

theorem State.LineStoreLaw.frameMissingExpires (h : s.LineStoreLaw) : s.frameMissingExpires.LineStoreLaw := by
  unfold State.frameMissingExpires
  split
  · exact h
  · exact State.lineStoreLaw_raiseHalt _ _ _

/-! ## Commands of the source port -/

theorem State.LineStoreLaw.setupTaken (h : s.LineStoreLaw) (r : List Byte) : (s.setupTaken r).LineStoreLaw := by
  unfold State.setupTaken
  refine (h.refuse .notRunning 1).ite ?_
  split
  · exact h.refuse .malformed 1
  · exact State.LineStoreLaw.refuse (h.of_source (s.setLayers_source _)) _ _

theorem State.LineStoreLaw.lineTaken (h : s.LineStoreLaw) (r : List Byte) : (s.lineTaken r).LineStoreLaw := by
  unfold State.lineTaken
  refine (h.refuse .notRunning 1).ite ?_
  split
  · exact h.refuse .malformed 1
  · split
    · exact h.refuse _ 1
    · next accepted => exact h.storeLine accepted

theorem State.LineStoreLaw.unknownTaken (h : s.LineStoreLaw) : s.unknownTaken.LineStoreLaw :=
  (h.refuse .notRunning 1).ite (h.refuse .malformed 1)

theorem State.LineStoreLaw.cueLeaves (h : s.LineStoreLaw) : s.cueLeaves.LineStoreLaw := by
  unfold State.cueLeaves
  split
  · exact h
  · exact h.of_lines rfl fun _ => rfl

/-! ## Every command -/

theorem State.lineStoreLaw_reset : State.reset.LineStoreLaw :=
  State.lineStoreLaw_of_empty (Four.get_all [])

theorem exec_keeps_lineStoreLaw (h : s.LineStoreLaw) : ∀ c : Instr, exec c s = .next t → t.LineStoreLaw
  | .reset, rfl => State.lineStoreLaw_reset.of_source rfl
  | .resetRelease strap, rfl => h.of_source (s.releaseReset_source strap)
  | .configAttemptFails phase, rfl => h.live_of_source (State.attemptFails_source · phase)
  | .retryWaitExpiry, rfl => h.live_of_source State.retryExpires_source
  | .configAttemptSucceeds image, rfl => h.live_of_source (State.attemptSucceeds_source · image)
  | .activityAppears, rfl => h.live_of_source State.activity_source
  | .aligningSilence, rfl => h.live_of_source State.aligningSilent_source
  | .lockGained, rfl => h.live_of_source State.gainLock_source
  | .silenceTimerExpiry active, rfl => h.live fun _ hu => hu.loseLock active
  | .cellError kind, rfl => h.live fun _ hu => hu.cellFails kind
  | .probe cell, rfl => h.arrive fun _ hu => hu.probeArrives cell
  | .roster cell, rfl => h.arrive fun _ hu => hu.rosterArrives cell
  | .commit cell, rfl => h.arrive fun _ hu => hu.commitArrives cell
  | .haltCell cell, rfl => h.arrive fun _ hu => hu.haltArrives cell
  | .frame cell, rfl => h.arrive fun u hu =>
      hu.filterPicture cell ((u.lineStoreLaw_takeFrameMark _).forward cell) hu
  | .merge cell, rfl => h.arrive fun u hu =>
      hu.filterPicture cell (hu.mergeAtMember cell) (hu.of_source (u.setOrigin_source _))
  | .result cell, rfl => h.arrive fun _ hu => hu.filterPicture cell (hu.resultAtMember cell) hu
  | .bulletin cell, rfl => h.arrive fun u hu =>
      have arrived := hu.of_source (u.bulletinArrives_source cell)
      hu.filterPicture cell arrived arrived
  | .unknownKindCell cell, rfl => h.arrive fun u hu => hu.of_source (u.unknownArrives_source cell)
  | .departureOpportunity, rfl => h.live fun _ hu => hu.opportunity
  | .frameTimerExpiry, rfl => h.live_of_source State.frameTimerExpires_source
  | .lineSlotTimerExpiry, rfl => h.live_of_source State.lineSlotExpires_source
  | .lapLimitExpiry, rfl => h.live fun _ hu => hu.lapLimitExpires
  | .rosterTimerExpiry, rfl => h.live_of_source State.rosterTimerExpires_source
  | .commitLimitExpiry, rfl => h.live fun _ hu => hu.commitLimitExpires
  | .noOriginTimerExpiry, rfl => h.live_of_source State.noOriginExpires_source
  | .firstFrameLimitExpiry, rfl => h.live fun _ hu => hu.firstFrameExpires
  | .frameMissingTimerExpiry, rfl => h.live fun _ hu => hu.frameMissingExpires
  | .holdOffTimerExpiry, rfl => h.live_of_source State.holdOffExpires_source
  | .beaconTimerExpiry, rfl => h.live_of_source State.beaconExpires_source
  | .layerSetup words, rfl => h.live fun _ hu => hu.setupTaken (recordBytes words)
  | .line words, rfl => h.live fun _ hu => hu.lineTaken (recordBytes words)
  | .unknownRecord _, rfl => h.live fun _ hu => hu.unknownTaken
  | .cueDeparts, rfl => h.live fun _ hu => hu.cueLeaves
  | .tapRecordDeparts ready, rfl => h.live_of_source (State.tapLeaves_source · ready)

theorem step_keeps_lineStoreLaw (h : s.LineStoreLaw) (ht : step s = .next t) : t.LineStoreLaw := by
  unfold step at ht
  split at ht
  · cases ht
    exact h
  · next c rest _ => exact exec_keeps_lineStoreLaw (h.of_source (s.setPending_source rest)) c ht

end

/-- Settles O56: the stores are empty after reset, and each command keeps the law (R53). -/
theorem everyStepKeepsTheLineStoreLaw : Obligations.EveryStepKeepsTheLineStoreLaw :=
  ⟨State.lineStoreLaw_reset, fun _ _ => step_keeps_lineStoreLaw⟩

end Sys2Proof.Machine
end

section
/-! SUPPORT. The probe byte stream (R112): the stages of the register, its period, and the bits of a byte. -/
namespace Sys2Proof.Machine

/-! ## The register -/

/-- Stages 1 to 6 move up one stage. -/
theorem lfsrStep_shifts (st : BitVec 7) {i : Nat} (hi : i < 6) :
    (lfsrStep st).getLsbD (i + 1) = st.getLsbD i := by
  have inRegister : i + 1 < 7 := Nat.succ_lt_succ hi
  simpa [lfsrStep] using fun _ => inRegister

/-- Stage 1 takes the exclusive-or of stages 7 and 6. -/
theorem lfsrStep_loads (st : BitVec 7) : (lfsrStep st).getLsbD 0 = (st.getLsbD 6 ^^ st.getLsbD 5) := by
  simp [lfsrStep]

/-- All stages are at 1 again after 127 bits, and from equal registers equal bits follow. -/
theorem lfsrAfter_periodic : Function.Periodic lfsrAfter 127 := by
  intro n
  induction n with
  | zero => decide +kernel
  | succ n ih => exact congrArg lfsrStep ih

theorem probeBit_eq_stageSeven (n : Nat) : probeBit n = (lfsrAfter n).getLsbD 6 := by
  rw [probeBit, lfsrAfter_periodic.map_mod_nat]

/-! ## Bytes of the stream -/

/-- The number whose binary digits are the first `n` bits of `f`, the first of them most significant. -/
def numberOfBits (f : Nat → Bool) (n : Nat) : Nat := (List.range n).foldl (fun a i => 2 * a + (f i).toNat) 0

theorem numberOfBits_succ (f : Nat → Bool) (n : Nat) :
    numberOfBits f (n + 1) = 2 * numberOfBits f n + (f n).toNat := by
  simp [numberOfBits, List.range_succ]

theorem testBit_zero_numberOfBits_succ (f : Nat → Bool) (n : Nat) : (numberOfBits f (n + 1)).testBit 0 = f n := by
  cases h : f n <;> simp [numberOfBits_succ, h]

theorem testBit_succ_numberOfBits_succ (f : Nat → Bool) (n i : Nat) :
    (numberOfBits f (n + 1)).testBit (i + 1) = (numberOfBits f n).testBit i := by
  have half : numberOfBits f (n + 1) / 2 = numberOfBits f n := by
    have := (f n).toNat_lt
    rw [numberOfBits_succ]
    omega
  rw [Nat.testBit_succ, half]

theorem numberOfBits_testBit (f : Nat → Bool) {n i : Nat} (hi : i < n) :
    (numberOfBits f n).testBit i = f (n - 1 - i) := by
  induction n generalizing i with
  | zero => exact absurd hi (Nat.not_lt_zero i)
  | succ n ih =>
    cases i with
    | zero => exact testBit_zero_numberOfBits_succ f n
    | succ i =>
      rw [testBit_succ_numberOfBits_succ, ih (Nat.lt_of_succ_lt_succ hi)]
      congr 1
      omega

theorem probeByte_eq_numberOfBits (p : Nat) :
    probeByte p = BitVec.ofNat 8 (numberOfBits (fun i => probeBit (8 * p + i)) 8) := rfl

/-- Bit `j` of byte `p`, counted from its most significant, is bit `8 * p + j` of the stream. -/
theorem probeByte_getMsbD (p : Nat) {j : Nat} (hj : j < 8) : (probeByte p).getMsbD j = probeBit (8 * p + j) := by
  have fromTop : 8 - 1 - (8 - 1 - j) = j := by omega
  have inByte : 8 - 1 - j < 8 := by omega
  rw [BitVec.getMsbD_eq_getLsbD, probeByte_eq_numberOfBits, BitVec.getLsbD_ofNat, numberOfBits_testBit _ inByte,
    fromTop]
  simp [hj, inByte]

end Sys2Proof.Machine
end

section
/-! SUPPORT. The probe generator's position (R112) through every operation but a departure. Queues are filled and
emptied and the overflow counter moves; the position stays. -/
namespace Sys2Proof.Machine

/-! ## Source port, layers and tap: the transmitter is not touched -/

@[simp] theorem State.refuse_tx (s : State) (r : Reason) (n : Nat) : (s.refuse r n).tx = s.tx := by
  rw [State.refuse_eq, State.setSource_tx]

@[simp] theorem State.lineBegun_tx (s : State) (y : Nat) : (s.lineBegun y).tx = s.tx := State.refuse_tx _ _ _

@[simp] theorem State.lineEnded_tx (s : State) (y : Nat) : (s.lineEnded y).tx = s.tx := State.refuse_tx _ _ _

@[simp] theorem State.lineStartCue_tx (s : State) (y : Nat) : (s.lineStartCue y).tx = s.tx := by
  obtain ⟨cues, hc, _⟩ := s.lineStartCue_source y
  rw [hc, State.setSource_tx]

@[simp] theorem State.readStores_tx (s : State) (span y : Nat) : (s.readStores span y).tx = s.tx := by
  obtain ⟨stores, missedLines, missed, hr, _⟩ := s.readStores_source span y
  rw [hr, State.setSource_tx]

@[simp] theorem State.beginLine_tx (s : State) (y : Nat) : (s.beginLine y).tx = s.tx := by
  unfold State.beginLine
  split
  · rfl
  · exact s.lineBegun_tx y

@[simp] theorem State.spanMerged_tx (s : State) (span y : Nat) : (s.spanMerged span y).tx = s.tx := by
  unfold State.spanMerged
  dsimp only
  split_ifs <;> simp

@[simp] theorem State.tapResult_tx (s : State) (d : ResultData) : (s.tapResult d).tx = s.tx := by
  obtain ⟨v, hv, _⟩ := s.tapResult_tap d
  rw [hv, State.setTap_tx]

/-! ## Queues, marks and halts: the transmitter's queues change alone -/

@[simp] theorem State.forward_probePosition (s : State) (c : CellBytes) :
    (s.forward c).tx.probePosition = s.tx.probePosition := by
  obtain ⟨queue, overflow, hq, _⟩ := s.forward_tx c
  rw [hq, State.setTx_tx]

@[simp] theorem State.takeFrameMark_probePosition (s : State) (frame : Half) :
    (s.takeFrameMark frame).tx.probePosition = s.tx.probePosition := by
  obtain ⟨queue, hq⟩ := s.takeFrameMark_tx frame
  rw [hq]

@[simp] theorem State.enterHalt_probePosition (s : State) (h : HaltRecord) (cell : CellBytes) :
    (s.enterHalt h cell).tx.probePosition = s.tx.probePosition := by
  rw [(s.enterHalt_entered h cell).queues]

@[simp] theorem State.raiseHalt_probePosition (s : State) (cause : HaltCause) (epoch : Byte) :
    (s.raiseHalt cause epoch).tx.probePosition = s.tx.probePosition :=
  s.enterHalt_probePosition _ _

@[simp] theorem State.raiseInRun_probePosition (s : State) (cause : HaltCause) :
    (s.raiseInRun cause).tx.probePosition = s.tx.probePosition :=
  s.raiseHalt_probePosition _ _

/-! ## Entry to LISTEN, ROLL, RELAY and RUN -/

@[simp] theorem State.tryRoll_probePosition (s : State) : s.tryRoll.tx.probePosition = s.tx.probePosition := by
  unfold State.tryRoll State.enterRoll
  dsimp only
  split_ifs <;> rfl

@[simp] theorem State.darkToListen_probePosition (s : State) (c : ConfigCopy) :
    (s.darkToListen c).tx.probePosition = s.tx.probePosition :=
  State.tryRoll_probePosition _

@[simp] theorem State.enterRun_probePosition (s : State) (role : Role) (c : Committed) (firstFrame : Timer) :
    (s.enterRun role c firstFrame).tx.probePosition = s.tx.probePosition := rfl

/-! ## Notices -/

@[simp] theorem State.lockLostNotice_probePosition (s : State) :
    s.lockLostNotice.tx.probePosition = s.tx.probePosition := by
  unfold State.lockLostNotice
  cases s.ring.state with
  | run => exact s.raiseInRun_probePosition _
  | dark | listen | roll | halt | relay => rfl

@[simp] theorem State.syncLostNotice_probePosition (s : State) :
    s.syncLostNotice.tx.probePosition = s.tx.probePosition := by
  unfold State.syncLostNotice
  cases s.ring.state with
  | run => exact s.raiseInRun_probePosition _
  | dark | listen | roll | halt | relay => rfl

@[simp] theorem State.degradeTest_probePosition (s before : State) :
    (s.degradeTest before).tx.probePosition = s.tx.probePosition := by
  unfold State.degradeTest
  split
  · exact s.raiseInRun_probePosition _
  · rfl

/-! ## Commands of start-up -/

theorem State.releaseReset_probePosition (s : State) (strap : Bool) :
    (s.releaseReset strap).tx.probePosition = s.tx.probePosition := by
  unfold State.releaseReset
  split_ifs <;> rfl

theorem State.attemptFails_probePosition (s : State) (phase : AttemptPhase) :
    (s.attemptFails phase).tx.probePosition = s.tx.probePosition := by
  unfold State.attemptFails
  split_ifs <;> rfl

theorem State.retryExpires_probePosition (s : State) : s.retryExpires.tx.probePosition = s.tx.probePosition := by
  unfold State.retryExpires
  split <;> rfl

theorem State.attemptSucceeds_probePosition (s : State) (image : List Byte) :
    (s.attemptSucceeds image).tx.probePosition = s.tx.probePosition := by
  unfold State.attemptSucceeds
  split
  · split
    · rfl
    · exact State.darkToListen_probePosition _ _
  · rfl

/-! ## Commands of the receiver and the link checker -/

theorem State.activity_probePosition (s : State) : s.activity.tx.probePosition = s.tx.probePosition := by
  unfold State.activity
  split <;> rfl

theorem State.aligningSilent_probePosition (s : State) : s.aligningSilent.tx.probePosition = s.tx.probePosition := by
  unfold State.aligningSilent
  split <;> rfl

theorem State.gainLock_probePosition (s : State) : s.gainLock.tx.probePosition = s.tx.probePosition := by
  unfold State.gainLock
  split
  · exact State.tryRoll_probePosition _
  · rfl

theorem State.loseLock_probePosition (s : State) (active : Bool) :
    (s.loseLock active).tx.probePosition = s.tx.probePosition := by
  unfold State.loseLock
  cases s.rx.lock with
  | noSignal | aligning => rfl
  | locked => exact State.lockLostNotice_probePosition _

theorem State.cellFails_probePosition (s : State) (kind : CellErrorKind) :
    (s.cellFails kind).tx.probePosition = s.tx.probePosition := by
  unfold State.cellFails State.countCellError
  split
  · exact State.degradeTest_probePosition _ _
  · exact State.degradeTest_probePosition _ _
  · rfl
  · rfl

theorem State.syncLost_probePosition (s before : State) :
    (s.syncLost before).tx.probePosition = s.tx.probePosition := by
  unfold State.syncLost State.freeChoice
  dsimp only
  split_ifs <;> simp

theorem State.probeArrives_probePosition (s : State) (c : CellBytes) :
    (s.probeArrives c).tx.probePosition = s.tx.probePosition := by
  unfold State.probeArrives
  split
  · unfold State.probeSynced
    dsimp only
    split_ifs <;> simp [State.syncLost_probePosition]
  · rfl

/-! ## Commands of the ring controller's cells -/

@[simp] theorem State.rosterHeard_tx (s : State) : s.rosterHeard.tx = s.tx := by
  unfold State.rosterHeard
  split <;> rfl

@[simp] theorem State.elect_probePosition (s : State) (r : RosterCell) :
    (s.elect r).tx.probePosition = s.tx.probePosition := by
  unfold State.elect
  split <;> rfl

theorem State.rosterInRoll_probePosition (s : State) (c : CellBytes) :
    (s.rosterInRoll c).tx.probePosition = s.tx.probePosition := by
  unfold State.rosterInRoll
  dsimp only
  split
  · split <;> simp [State.raiseDemoting]
  · rfl

theorem State.rosterArrives_probePosition (s : State) (c : CellBytes) :
    (s.rosterArrives c).tx.probePosition = s.tx.probePosition := by
  unfold State.rosterArrives
  cases s.ring.state with
  | dark | listen | run | halt => rfl
  | roll => exact s.rosterInRoll_probePosition c
  | relay => exact s.forward_probePosition c

theorem State.ownCommitReturns_probePosition (s : State) (c : CommitCell) :
    (s.ownCommitReturns c).tx.probePosition = s.tx.probePosition := by
  unfold State.ownCommitReturns
  split <;> rfl

theorem State.commitInRoll_probePosition (s : State) (c : CellBytes) :
    (s.commitInRoll c).tx.probePosition = s.tx.probePosition := by
  unfold State.commitInRoll
  dsimp only
  split_ifs
  · exact s.ownCommitReturns_probePosition _
  · rfl
  · split <;> simp [State.joinAsMember]
  · rfl

theorem State.commitArrives_probePosition (s : State) (c : CellBytes) :
    (s.commitArrives c).tx.probePosition = s.tx.probePosition := by
  unfold State.commitArrives
  cases s.ring.state with
  | dark | listen | run | halt => rfl
  | roll => exact s.commitInRoll_probePosition c
  | relay => exact s.forward_probePosition c

theorem State.acceptHalt_probePosition (s : State) (c : CellBytes) :
    (s.acceptHalt c).tx.probePosition = s.tx.probePosition := by
  unfold State.acceptHalt
  split
  · rfl
  · exact s.enterHalt_probePosition _ c

theorem State.haltArrives_probePosition (s : State) (c : CellBytes) :
    (s.haltArrives c).tx.probePosition = s.tx.probePosition := by
  unfold State.haltArrives
  cases s.ring.state with
  | dark | listen | halt => rfl
  | roll => exact s.acceptHalt_probePosition c
  | run =>
    dsimp only
    split
    · exact s.acceptHalt_probePosition c
    · rfl
  | relay => exact s.forward_probePosition c

/-! ## Commands of the picture's cells -/

theorem State.filterPicture_probePosition (s : State) (c : CellBytes) {member origin : State → State}
    (hm : (member s).tx.probePosition = s.tx.probePosition) (ho : (origin s).tx.probePosition = s.tx.probePosition) :
    (s.filterPicture c member origin).tx.probePosition = s.tx.probePosition := by
  unfold State.filterPicture
  cases s.ring.state with
  | dark | listen | roll | halt => rfl
  | relay => exact s.forward_probePosition c
  | run =>
    dsimp only
    split_ifs
    · rfl
    · exact ho
    · exact hm

theorem State.frameAtMember_probePosition (s : State) (c : CellBytes) :
    (s.frameAtMember c).tx.probePosition = s.tx.probePosition := by
  simp [State.frameAtMember]

theorem State.mergeAtMember_probePosition (s : State) (c : CellBytes) :
    (s.mergeAtMember c).tx.probePosition = s.tx.probePosition := by
  unfold State.mergeAtMember
  dsimp only
  split <;> simp [State.mergeCell_state]

theorem State.resultAtMember_probePosition (s : State) (c : CellBytes) :
    (s.resultAtMember c).tx.probePosition = s.tx.probePosition := by
  simp [State.resultAtMember]

theorem State.bulletinArrives_probePosition (s : State) (c : CellBytes) :
    (s.bulletinArrives c).tx.probePosition = s.tx.probePosition := by
  unfold State.bulletinArrives
  split_ifs
  · rfl
  · rfl
  · exact State.forward_probePosition _ c
  · rfl

theorem State.unknownArrives_probePosition (s : State) (c : CellBytes) :
    (s.unknownArrives c).tx.probePosition = s.tx.probePosition := by
  unfold State.unknownArrives
  cases s.ring.state with
  | dark | listen | roll | run | halt => rfl
  | relay => exact s.forward_probePosition c

/-! ## Commands of the timers -/

theorem State.frameTimerExpires_probePosition (s : State) :
    s.frameTimerExpires.tx.probePosition = s.tx.probePosition := by
  unfold State.frameTimerExpires
  split <;> rfl

theorem State.lineSlotExpires_probePosition (s : State) :
    s.lineSlotExpires.tx.probePosition = s.tx.probePosition := by
  unfold State.lineSlotExpires
  split <;> rfl

theorem State.lapLimitExpires_probePosition (s : State) :
    s.lapLimitExpires.tx.probePosition = s.tx.probePosition := by
  unfold State.lapLimitExpires
  split
  · rfl
  · dsimp only
    split
    · exact State.raiseInRun_probePosition _ _
    · rfl

theorem State.rosterTimerExpires_probePosition (s : State) :
    s.rosterTimerExpires.tx.probePosition = s.tx.probePosition := by
  unfold State.rosterTimerExpires
  split <;> rfl

theorem State.commitLimitExpires_probePosition (s : State) :
    s.commitLimitExpires.tx.probePosition = s.tx.probePosition := by
  unfold State.commitLimitExpires
  split
  · rfl
  · dsimp only
    split
    · exact State.raiseHalt_probePosition _ _ _
    · rfl

theorem State.noOriginExpires_probePosition (s : State) :
    s.noOriginExpires.tx.probePosition = s.tx.probePosition := by
  unfold State.noOriginExpires
  split <;> rfl

theorem State.firstFrameExpires_probePosition (s : State) :
    s.firstFrameExpires.tx.probePosition = s.tx.probePosition := by
  unfold State.firstFrameExpires
  split
  · rfl
  · exact State.raiseInRun_probePosition _ _

theorem State.frameMissingExpires_probePosition (s : State) :
    s.frameMissingExpires.tx.probePosition = s.tx.probePosition := by
  unfold State.frameMissingExpires
  split
  · rfl
  · exact State.raiseInRun_probePosition _ _

theorem State.holdOffExpires_probePosition (s : State) :
    s.holdOffExpires.tx.probePosition = s.tx.probePosition := by
  unfold State.holdOffExpires
  split
  · rfl
  · dsimp only
    split
    · rfl
    · exact State.tryRoll_probePosition _

theorem State.beaconExpires_probePosition (s : State) : s.beaconExpires.tx.probePosition = s.tx.probePosition := by
  unfold State.beaconExpires
  split <;> rfl

/-! ## Commands of the ports -/

theorem State.setupTaken_probePosition (s : State) (r : List Byte) :
    (s.setupTaken r).tx.probePosition = s.tx.probePosition := by
  unfold State.setupTaken
  split
  · simp
  · split <;> simp [State.acceptSetup]

theorem State.lineTaken_probePosition (s : State) (r : List Byte) :
    (s.lineTaken r).tx.probePosition = s.tx.probePosition := by
  unfold State.lineTaken
  split
  · simp
  · split
    · simp
    · split <;> simp [State.storeLine]

theorem State.unknownTaken_probePosition (s : State) : s.unknownTaken.tx.probePosition = s.tx.probePosition := by
  unfold State.unknownTaken
  split <;> simp

theorem State.cueLeaves_probePosition (s : State) : s.cueLeaves.tx.probePosition = s.tx.probePosition := by
  unfold State.cueLeaves
  split <;> rfl

theorem State.tapLeaves_probePosition (s : State) (ready : Bool) :
    (s.tapLeaves ready).tx.probePosition = s.tx.probePosition := by
  unfold State.tapLeaves
  split <;> rfl

/-! ## Every command -/

section
variable {s t : State} {f : State → State}

theorem State.live_probePosition (keeps : ∀ u, (f u).tx.probePosition = u.tx.probePosition) :
    (s.live f).tx.probePosition = s.tx.probePosition := by
  unfold State.live
  split
  · rfl
  · exact keeps s

theorem State.arrive_probePosition (keeps : ∀ u, (f u).tx.probePosition = u.tx.probePosition) :
    (s.arrive f).tx.probePosition = s.tx.probePosition := by
  refine State.live_probePosition fun u => ?_
  split
  · exact keeps u.validBoundary
  · rfl

/-- One case per command; RESET and the departure opportunity are shut out (R112). -/
theorem exec_keeps_probePosition : ∀ c : Instr, c ≠ .reset → c ≠ .departureOpportunity → exec c s = .next t →
    t.tx.probePosition = s.tx.probePosition
  | .reset, notReset, _, _ => absurd rfl notReset
  | .departureOpportunity, _, notDeparture, _ => absurd rfl notDeparture
  | .resetRelease strap, _, _, rfl => s.releaseReset_probePosition strap
  | .configAttemptFails phase, _, _, rfl => State.live_probePosition (State.attemptFails_probePosition · phase)
  | .retryWaitExpiry, _, _, rfl => State.live_probePosition State.retryExpires_probePosition
  | .configAttemptSucceeds image, _, _, rfl => State.live_probePosition (State.attemptSucceeds_probePosition · image)
  | .activityAppears, _, _, rfl => State.live_probePosition State.activity_probePosition
  | .aligningSilence, _, _, rfl => State.live_probePosition State.aligningSilent_probePosition
  | .lockGained, _, _, rfl => State.live_probePosition State.gainLock_probePosition
  | .silenceTimerExpiry active, _, _, rfl => State.live_probePosition (State.loseLock_probePosition · active)
  | .cellError kind, _, _, rfl => State.live_probePosition (State.cellFails_probePosition · kind)
  | .probe cell, _, _, rfl => State.arrive_probePosition (State.probeArrives_probePosition · cell)
  | .roster cell, _, _, rfl => State.arrive_probePosition (State.rosterArrives_probePosition · cell)
  | .commit cell, _, _, rfl => State.arrive_probePosition (State.commitArrives_probePosition · cell)
  | .haltCell cell, _, _, rfl => State.arrive_probePosition (State.haltArrives_probePosition · cell)
  | .frame cell, _, _, rfl => State.arrive_probePosition fun u =>
      u.filterPicture_probePosition cell (u.frameAtMember_probePosition cell) rfl
  | .merge cell, _, _, rfl => State.arrive_probePosition fun u =>
      u.filterPicture_probePosition cell (u.mergeAtMember_probePosition cell) rfl
  | .result cell, _, _, rfl => State.arrive_probePosition fun u =>
      u.filterPicture_probePosition cell (u.resultAtMember_probePosition cell) rfl
  | .bulletin cell, _, _, rfl => State.arrive_probePosition fun u =>
      u.filterPicture_probePosition cell (u.bulletinArrives_probePosition cell) (u.bulletinArrives_probePosition cell)
  | .unknownKindCell cell, _, _, rfl => State.arrive_probePosition (State.unknownArrives_probePosition · cell)
  | .frameTimerExpiry, _, _, rfl => State.live_probePosition State.frameTimerExpires_probePosition
  | .lineSlotTimerExpiry, _, _, rfl => State.live_probePosition State.lineSlotExpires_probePosition
  | .lapLimitExpiry, _, _, rfl => State.live_probePosition State.lapLimitExpires_probePosition
  | .rosterTimerExpiry, _, _, rfl => State.live_probePosition State.rosterTimerExpires_probePosition
  | .commitLimitExpiry, _, _, rfl => State.live_probePosition State.commitLimitExpires_probePosition
  | .noOriginTimerExpiry, _, _, rfl => State.live_probePosition State.noOriginExpires_probePosition
  | .firstFrameLimitExpiry, _, _, rfl => State.live_probePosition State.firstFrameExpires_probePosition
  | .frameMissingTimerExpiry, _, _, rfl => State.live_probePosition State.frameMissingExpires_probePosition
  | .holdOffTimerExpiry, _, _, rfl => State.live_probePosition State.holdOffExpires_probePosition
  | .beaconTimerExpiry, _, _, rfl => State.live_probePosition State.beaconExpires_probePosition
  | .layerSetup words, _, _, rfl => State.live_probePosition (State.setupTaken_probePosition · (recordBytes words))
  | .line words, _, _, rfl => State.live_probePosition (State.lineTaken_probePosition · (recordBytes words))
  | .unknownRecord _, _, _, rfl => State.live_probePosition State.unknownTaken_probePosition
  | .cueDeparts, _, _, rfl => State.live_probePosition State.cueLeaves_probePosition
  | .tapRecordDeparts ready, _, _, rfl => State.live_probePosition (State.tapLeaves_probePosition · ready)

end

theorem exec_reset_probePosition {s t : State} (h : exec .reset s = .next t) : t.tx.probePosition = 0 := by
  cases h
  rfl

/-- Settles O15: the register is the model's own, `lfsrAfter`, and every command but RESET and the departure opportunity
keeps the position. -/
theorem probeStreamComesFromTheRegister : Obligations.ProbeStreamComesFromTheRegister := by
  have stream (p j : Nat) (_ : p < 127) (hj : j < 8) :
      (probeByte p).getMsbD j = (lfsrAfter (8 * p + j)).getLsbD 6 := by
    rw [probeByte_getMsbD p hj, probeBit_eq_stageSeven]
  exact ⟨⟨lfsrAfter, rfl, fun n _ => lfsrStep_shifts (lfsrAfter n), fun n => lfsrStep_loads (lfsrAfter n),
    lfsrAfter_periodic, stream⟩, by decide +kernel, by decide +kernel, fun _ _ => exec_reset_probePosition,
    fun c _ _ => exec_keeps_probePosition c⟩

end Sys2Proof.Machine
end

section
/-! SUPPORT. The operations that leave the tap unit as it stands, each said once. -/
namespace Sys2Proof.Machine

/-! ## Source port, line stores and layers -/

@[simp] theorem State.refuse_tap (s : State) (r : Reason) (n : Nat) : (s.refuse r n).tap = s.tap := by
  rw [State.refuse_eq, State.setSource_tap]

@[simp] theorem State.lineBegun_tap (s : State) (y : Nat) : (s.lineBegun y).tap = s.tap := State.refuse_tap _ _ _

@[simp] theorem State.lineEnded_tap (s : State) (y : Nat) : (s.lineEnded y).tap = s.tap := State.refuse_tap _ _ _

@[simp] theorem State.lineStartCue_tap (s : State) (y : Nat) : (s.lineStartCue y).tap = s.tap := by
  obtain ⟨cues, hc, _⟩ := s.lineStartCue_source y
  rw [hc, State.setSource_tap]

@[simp] theorem State.readStores_tap (s : State) (span y : Nat) : (s.readStores span y).tap = s.tap := by
  obtain ⟨stores, missedLines, missed, hr, _⟩ := s.readStores_source span y
  rw [hr, State.setSource_tap]

@[simp] theorem State.beginLine_tap (s : State) (y : Nat) : (s.beginLine y).tap = s.tap := by
  unfold State.beginLine
  split
  · rfl
  · exact s.lineBegun_tap y

@[simp] theorem State.spanMerged_tap (s : State) (span y : Nat) : (s.spanMerged span y).tap = s.tap := by
  unfold State.spanMerged
  dsimp only
  split_ifs <;> simp

@[simp] theorem State.sourceAtMark_tap (s : State) : s.sourceAtMark.tap = s.tap := by
  rw [State.sourceAtMark_eq, State.setSource_tap]

@[simp] theorem State.layersAtMark_tap (s : State) (first : Bool) : (s.layersAtMark first).tap = s.tap := by
  obtain ⟨layers, n, hl, _⟩ := s.layersAtMark_shape first
  rw [hl, State.refuse_tap, State.setLayers_tap]

/-! ## Queues, marks and the receiver -/

@[simp] theorem State.forward_tap (s : State) (c : CellBytes) : (s.forward c).tap = s.tap := by
  obtain ⟨queue, overflow, hq, _⟩ := s.forward_tx c
  rw [hq, State.setTx_tap]

@[simp] theorem State.bulletinAtMark_tap (s before : State) (frame : Half) :
    (s.bulletinAtMark before frame).tap = s.tap := by
  obtain ⟨bulletins, queue, n, hb, _⟩ := s.bulletinAtMark_shape before frame
  rw [hb, State.setBulletin_tap, State.setTx_tap, State.setFreeCount_tap]

@[simp] theorem State.ringAtMark_tap (s : State) : s.ringAtMark.tap = s.tap := by
  unfold State.ringAtMark
  split <;> rfl

@[simp] theorem State.clearFrameErrors_tap (s : State) : s.clearFrameErrors.tap = s.tap := rfl

@[simp] theorem State.drivePins_tap (s : State) : s.drivePins.tap = s.tap := rfl

@[simp] theorem State.dropRoster_tap (s : State) : s.dropRoster.tap = s.tap := rfl

@[simp] theorem State.validBoundary_tap (s : State) : s.validBoundary.tap = s.tap := rfl

@[simp] theorem State.countStale_tap (s : State) : s.countStale.tap = s.tap := rfl

/-! ## Entry to LISTEN, ROLL, RELAY and RUN -/

@[simp] theorem State.enterRoll_tap (s : State) : s.enterRoll.tap = s.tap := by
  unfold State.enterRoll
  dsimp only
  split <;> rfl

@[simp] theorem State.tryRoll_tap (s : State) : s.tryRoll.tap = s.tap := by
  unfold State.tryRoll
  split
  · exact s.enterRoll_tap
  · rfl

@[simp] theorem State.returnToListen_tap (s : State) : s.returnToListen.tap = s.tap := rfl

@[simp] theorem State.faultInHoldOff_tap (s : State) : s.faultInHoldOff.tap = s.tap := rfl

@[simp] theorem State.flushForward_tap (s : State) : s.flushForward.tap = s.tap := rfl

@[simp] theorem State.enterRun_tap (s : State) (role : Role) (c : Committed) (firstFrame : Timer) :
    (s.enterRun role c firstFrame).tap = s.tap := by
  simp [State.enterRun]

@[simp] theorem State.darkToRelay_tap (s : State) (cause : RelayCause) : (s.darkToRelay cause).tap = s.tap := rfl

@[simp] theorem State.darkToListen_tap (s : State) (c : ConfigCopy) : (s.darkToListen c).tap = s.tap :=
  State.tryRoll_tap _

/-! ## ROSTER and COMMIT -/

@[simp] theorem State.rosterHeard_tap (s : State) : s.rosterHeard.tap = s.tap := by
  unfold State.rosterHeard
  split <;> rfl

@[simp] theorem State.elect_tap (s : State) (r : RosterCell) : (s.elect r).tap = s.tap := by
  unfold State.elect
  split <;> rfl

@[simp] theorem State.joinAsMember_tap (s : State) (cell : CellBytes) (c : CommitCell) (position : Nat) :
    (s.joinAsMember cell c position).tap = s.tap := by
  rw [State.joinAsMember, State.enterRun_tap, State.forward_tap]

@[simp] theorem State.ownCommitReturns_tap (s : State) (c : CommitCell) : (s.ownCommitReturns c).tap = s.tap := by
  unfold State.ownCommitReturns
  split
  · rw [State.setOrigin_tap, State.enterRun_tap]
  · rfl

/-! ## Whole commands -/

@[simp] theorem State.releaseReset_tap (s : State) (strap : Bool) : (s.releaseReset strap).tap = s.tap := by
  unfold State.releaseReset
  split_ifs <;> rfl

@[simp] theorem State.attemptFails_tap (s : State) (phase : AttemptPhase) : (s.attemptFails phase).tap = s.tap := by
  unfold State.attemptFails
  split_ifs <;> rfl

@[simp] theorem State.attemptSucceeds_tap (s : State) (image : List Byte) : (s.attemptSucceeds image).tap = s.tap := by
  unfold State.attemptSucceeds
  split
  · split
    · exact State.darkToRelay_tap _ _
    · exact State.darkToListen_tap _ _
  · rfl

@[simp] theorem State.retryExpires_tap (s : State) : s.retryExpires.tap = s.tap := by
  unfold State.retryExpires
  split <;> rfl

@[simp] theorem State.activity_tap (s : State) : s.activity.tap = s.tap := by
  unfold State.activity
  split <;> rfl

@[simp] theorem State.aligningSilent_tap (s : State) : s.aligningSilent.tap = s.tap := by
  unfold State.aligningSilent
  split <;> rfl

@[simp] theorem State.gainLock_tap (s : State) : s.gainLock.tap = s.tap := by
  unfold State.gainLock
  split
  · exact State.tryRoll_tap _
  · rfl

@[simp] theorem State.mergeAtMember_tap (s : State) (c : CellBytes) : (s.mergeAtMember c).tap = s.tap := by
  unfold State.mergeAtMember
  dsimp only
  split <;> simp [State.mergeCell_state]

@[simp] theorem State.unknownArrives_tap (s : State) (c : CellBytes) : (s.unknownArrives c).tap = s.tap := by
  unfold State.unknownArrives
  cases s.ring.state with
  | relay => exact s.forward_tap c
  | dark | listen | roll | run | halt => rfl

@[simp] theorem State.launchMerge_tap (s : State) (y : Nat) : (s.launchMerge y).tap = s.tap := by
  have merged : (s.launchMerge y).tap =
      ((if s.origin.nextSpan = 0 then s.lineBegun y else s).spanMerged s.origin.nextSpan y).tap := rfl
  rw [merged, State.spanMerged_tap]
  split
  · exact s.lineBegun_tap y
  · rfl

@[simp] theorem State.frameTimerExpires_tap (s : State) : s.frameTimerExpires.tap = s.tap := by
  unfold State.frameTimerExpires
  split <;> rfl

@[simp] theorem State.lineSlotExpires_tap (s : State) : s.lineSlotExpires.tap = s.tap := by
  unfold State.lineSlotExpires
  split <;> rfl

@[simp] theorem State.rosterTimerExpires_tap (s : State) : s.rosterTimerExpires.tap = s.tap := by
  unfold State.rosterTimerExpires
  split <;> rfl

@[simp] theorem State.noOriginExpires_tap (s : State) : s.noOriginExpires.tap = s.tap := by
  unfold State.noOriginExpires
  split <;> rfl

@[simp] theorem State.holdOffExpires_tap (s : State) : s.holdOffExpires.tap = s.tap := by
  unfold State.holdOffExpires
  split
  · rfl
  · dsimp only
    split
    · rfl
    · exact State.tryRoll_tap _

@[simp] theorem State.setupTaken_tap (s : State) (r : List Byte) : (s.setupTaken r).tap = s.tap := by
  unfold State.setupTaken
  split
  · exact s.refuse_tap _ 1
  · split
    · exact s.refuse_tap _ 1
    · exact State.refuse_tap _ _ _

@[simp] theorem State.lineTaken_tap (s : State) (r : List Byte) : (s.lineTaken r).tap = s.tap := by
  unfold State.lineTaken
  split
  · exact s.refuse_tap _ 1
  · split
    · exact s.refuse_tap _ 1
    · split
      · exact s.refuse_tap _ 1
      · rfl

@[simp] theorem State.unknownTaken_tap (s : State) : s.unknownTaken.tap = s.tap := by
  unfold State.unknownTaken
  split <;> exact s.refuse_tap _ 1

@[simp] theorem State.cueLeaves_tap (s : State) : s.cueLeaves.tap = s.tap := by
  unfold State.cueLeaves
  split <;> rfl

end Sys2Proof.Machine
end

section
/-! SUPPORT. The tap queue's law (R164) through every command. The tap unit changes its queue by offers alone (R163):
at a FRAME mark, a RESULT, a bulletin, a halt entry and a beacon; the tap port takes the head away, and a reset empties
the queue. -/
namespace Sys2Proof.Machine

/-! ## A record that leaves -/

/-- With its head taken away a queue stays within both bounds. -/
theorem Tap.Law.removeHead {t : Tap} {r : TapRecord} {rest : List TapRecord} (h : t.Law) (hq : t.queue = r :: rest)
    (out : List TapEdge) : Tap.Law { t with queue := rest, out := out } := by
  obtain ⟨short, fewData⟩ := h
  have left : rest.Sublist t.queue := hq ▸ List.sublist_cons_self r rest
  exact ⟨left.length_le.trans short, (left.filter _).length_le.trans fewData⟩

section
variable {s t : State}

/-! ## What the law looks at -/

theorem State.tapLaw_iff : s.TapLaw ↔ s.tap.Law := Iff.rfl

theorem State.TapLaw.of_tap (h : s.TapLaw) (ht : t.tap = s.tap) : t.TapLaw := by
  rw [State.tapLaw_iff, ht]
  exact h

theorem State.TapLaw.ite {c : Prop} [Decidable c] (hs : s.TapLaw) (ht : t.TapLaw) : (if c then s else t).TapLaw := by
  split
  · exact hs
  · exact ht

/-! ## Operations of the tap unit -/

theorem State.TapLaw.emit (h : s.TapLaw) (r : TapRecord) : (s.emit r).TapLaw := Tap.Law.offer h r

theorem State.TapLaw.tapResult (h : s.TapLaw) (d : ResultData) : (s.tapResult d).TapLaw := by
  obtain ⟨tap, ht, keeps⟩ := s.tapResult_tap d
  rw [ht]
  exact keeps h

theorem State.TapLaw.tapAtMark (h : s.TapLaw) (before : State) (frame : Half) :
    (s.tapAtMark before frame).TapLaw := by
  obtain ⟨tap, ht, keeps⟩ := s.tapAtMark_tap before frame
  rw [ht]
  exact keeps h

theorem State.TapLaw.tapLeaves (h : s.TapLaw) (ready : Bool) : (s.tapLeaves ready).TapLaw := by
  unfold State.tapLeaves
  split
  · next r rest hq => exact Tap.Law.removeHead h hq r.edges
  · exact h

/-! ## FRAME marks, halts and notices -/

/-- Of the owners of a FRAME mark the tap unit alone offers records (R63, R165). -/
theorem State.TapLaw.takeFrameMark (h : s.TapLaw) (frame : Half) : (s.takeFrameMark frame).TapLaw := by
  have before : State.TapLaw (((s.setMerge { s.merge with lastTaken := some frame }).sourceAtMark.layersAtMark
      s.merge.lastTaken.isNone).ringAtMark) := h.of_tap (by simp)
  exact (before.tapAtMark s frame).of_tap (by simp [State.takeFrameMark])

/-- Entry to HALT offers a HALT_NOTICE, after a FRAME_END where a frame is open (R169). -/
theorem State.TapLaw.enterHalt (h : s.TapLaw) (r : HaltRecord) (cell : CellBytes) : (s.enterHalt r cell).TapLaw := by
  have entered := s.enterHalt_entered r cell
  rw [State.tapLaw_iff] at h ⊢
  cases frame : s.tap.openFrame with
  | none =>
    rw [entered.tapShut frame]
    exact h.offer (.haltNotice r)
  | some o =>
    obtain ⟨trailer, _, _, _, offered⟩ := entered.tapOpen o frame
    rw [offered]
    exact (h.offer (.frameEnd o.frame true trailer)).offer (.haltNotice r)

theorem State.TapLaw.raiseHalt (h : s.TapLaw) (cause : HaltCause) (epoch : Byte) : (s.raiseHalt cause epoch).TapLaw :=
  h.enterHalt _ _

theorem State.TapLaw.raiseInRun (h : s.TapLaw) (cause : HaltCause) : (s.raiseInRun cause).TapLaw := h.raiseHalt _ _

theorem State.TapLaw.raiseDemoting (h : s.TapLaw) (d : Demotion) (cause : HaltCause) :
    (s.raiseDemoting d cause).TapLaw :=
  State.TapLaw.raiseHalt (h.of_tap (s.setRing_tap _)) _ _

theorem State.TapLaw.lockLostNotice (h : s.TapLaw) : s.lockLostNotice.TapLaw := by
  unfold State.lockLostNotice
  cases s.ring.state with
  | dark | listen => exact h
  | roll => exact h.of_tap s.returnToListen_tap
  | run => exact h.raiseInRun _
  | halt => exact h.of_tap s.faultInHoldOff_tap
  | relay => exact h.of_tap s.flushForward_tap

theorem State.TapLaw.syncLostNotice (h : s.TapLaw) : s.syncLostNotice.TapLaw := by
  unfold State.syncLostNotice
  cases s.ring.state with
  | dark | listen | relay => exact h
  | roll => exact h.of_tap s.returnToListen_tap
  | run => exact h.raiseInRun _
  | halt => exact h.of_tap s.faultInHoldOff_tap

theorem State.TapLaw.degradeTest (h : s.TapLaw) (before : State) : (s.degradeTest before).TapLaw :=
  (h.raiseInRun _).ite h

/-! ## The arrival of a cell -/

theorem State.TapLaw.live (h : s.TapLaw) {f : State → State} (keeps : ∀ u : State, u.TapLaw → (f u).TapLaw) :
    (s.live f).TapLaw :=
  h.ite (keeps s h)

/-- A command that never touches the tap unit. -/
theorem State.TapLaw.live_of_tap (h : s.TapLaw) {f : State → State} (same : ∀ u, (f u).tap = u.tap) :
    (s.live f).TapLaw :=
  h.live fun u hu => hu.of_tap (same u)

theorem State.TapLaw.arrive (h : s.TapLaw) {f : State → State} (keeps : ∀ u : State, u.TapLaw → (f u).TapLaw) :
    (s.arrive f).TapLaw :=
  h.live fun u hu => (keeps _ (hu.of_tap u.validBoundary_tap)).ite hu

theorem State.TapLaw.forward (h : s.TapLaw) (c : CellBytes) : (s.forward c).TapLaw := h.of_tap (s.forward_tap c)

theorem State.TapLaw.filterPicture (h : s.TapLaw) (c : CellBytes) {member origin : State → State}
    (hm : (member s).TapLaw) (ho : (origin s).TapLaw) : (s.filterPicture c member origin).TapLaw := by
  unfold State.filterPicture
  cases s.ring.state with
  | dark | listen | roll | halt => exact h
  | relay => exact h.forward c
  | run => exact (h.of_tap s.countStale_tap).ite (ho.ite hm)

/-! ## Commands of the receiver and the link checker -/

theorem State.TapLaw.loseLock (h : s.TapLaw) (active : Bool) : (s.loseLock active).TapLaw := by
  unfold State.loseLock
  cases s.rx.lock with
  | noSignal | aligning => exact h
  | locked => exact State.TapLaw.lockLostNotice (h.of_tap rfl)

theorem State.TapLaw.countCellError (h : s.TapLaw) : s.countCellError.TapLaw :=
  State.TapLaw.degradeTest (h.of_tap (s.setFilter_tap _)) s

theorem State.TapLaw.cellFails (h : s.TapLaw) (kind : CellErrorKind) : (s.cellFails kind).TapLaw := by
  unfold State.cellFails
  split
  · exact h.countCellError
  · exact (h.of_tap s.validBoundary_tap).countCellError
  · exact h
  · exact h

/-- Whichever notice comes first (log 11), each halt it raises keeps the law. -/
theorem State.TapLaw.syncLost (h : s.TapLaw) (before : State) : (s.syncLost before).TapLaw := by
  have lost : ∀ u : State, u.TapLaw → (u.setChecker u.checker.loseSync).syncLostNotice.TapLaw :=
    fun u hu => State.TapLaw.syncLostNotice (hu.of_tap (u.setChecker_tap _))
  have chosen : (s.setFreeCount (s.freeCount + 1)).TapLaw := h.of_tap (s.setFreeCount_tap _)
  exact ((lost _ (chosen.raiseInRun _)).ite (lost _ chosen)).ite (lost s h)

theorem State.TapLaw.probeSynced (h : s.TapLaw) (previous start : Nat) (arrived : List Byte) :
    (s.probeSynced previous start arrived).TapLaw := by
  have checked := h.of_tap (s.setChecker_tap (s.checker.checked previous start arrived s.merge.lastTaken))
  exact (checked.syncLost s).ite ((checked.of_tap (State.tryRoll_tap _)).ite (checked.degradeTest s))

theorem State.TapLaw.probeArrives (h : s.TapLaw) (c : CellBytes) : (s.probeArrives c).TapLaw := by
  unfold State.probeArrives
  split
  · exact h.probeSynced _ _ _
  · exact h.of_tap (s.setChecker_tap _)

/-! ## Commands of the ring controller's cells -/

theorem State.TapLaw.rosterInRoll (h : s.TapLaw) (c : CellBytes) : (s.rosterInRoll c).TapLaw := by
  have heard := h.of_tap s.rosterHeard_tap
  unfold State.rosterInRoll
  dsimp only
  refine State.TapLaw.ite ?_ h
  cases s.rosterHeard.rosterCase (readRoster c) with
  | superseded | stale | outranked => exact heard
  | elected => exact heard.of_tap (State.elect_tap _ _)
  | duplicateId | ringTooLong => exact heard.raiseDemoting _ _
  | append => exact heard.forward _

theorem State.TapLaw.rosterArrives (h : s.TapLaw) (c : CellBytes) : (s.rosterArrives c).TapLaw := by
  unfold State.rosterArrives
  cases s.ring.state with
  | dark | listen | run | halt => exact h
  | roll => exact h.rosterInRoll c
  | relay => exact h.forward c

theorem State.TapLaw.commitInRoll (h : s.TapLaw) (c : CellBytes) : (s.commitInRoll c).TapLaw := by
  unfold State.commitInRoll
  dsimp only
  refine State.TapLaw.ite ((h.of_tap (s.ownCommitReturns_tap _)).ite (h.ite ?_)) h
  split
  · exact h.of_tap (s.joinAsMember_tap _ _ _)
  · exact h.raiseHalt _ _

theorem State.TapLaw.commitArrives (h : s.TapLaw) (c : CellBytes) : (s.commitArrives c).TapLaw := by
  unfold State.commitArrives
  cases s.ring.state with
  | dark | listen | run | halt => exact h
  | roll => exact h.commitInRoll c
  | relay => exact h.forward c

theorem State.TapLaw.acceptHalt (h : s.TapLaw) (c : CellBytes) : (s.acceptHalt c).TapLaw := by
  unfold State.acceptHalt
  split
  · exact h
  · exact h.enterHalt _ c

theorem State.TapLaw.haltArrives (h : s.TapLaw) (c : CellBytes) : (s.haltArrives c).TapLaw := by
  unfold State.haltArrives
  cases s.ring.state with
  | dark | listen | halt => exact h
  | roll => exact h.acceptHalt c
  | run => exact (h.acceptHalt c).ite h
  | relay => exact h.forward c

/-! ## Commands of the picture's cells and the departure opportunity -/

/-- A peer's bulletin is offered to the tap queue; the station's own is not (R174). -/
theorem State.TapLaw.bulletinArrives (h : s.TapLaw) (c : CellBytes) : (s.bulletinArrives c).TapLaw := by
  have returned : (s.setBulletin { s.bulletin with outstanding := none }).TapLaw := h.of_tap (s.setBulletin_tap _)
  have heard : (s.recordHealth (bulletinPosition c)).TapLaw := h.of_tap (s.setBulletin_tap _)
  exact (returned.ite h).ite (((heard.emit _).forward c).ite h)

theorem State.TapLaw.bulletinDeparts (h : s.TapLaw) (b : Bulletin) : (s.bulletinDeparts b).TapLaw := by
  have tapped : ((s.setBulletin { s.bulletin with outstanding := some b.frame }).emit (.bulletin b.bytes)).TapLaw :=
    State.TapLaw.emit (h.of_tap (s.setBulletin_tap _)) _
  unfold State.bulletinDeparts
  dsimp only
  split
  · exact tapped.of_tap rfl
  · exact tapped.of_tap rfl

theorem State.TapLaw.launchDeparts (h : s.TapLaw) (c : LaunchCell) : (s.launchDeparts c).TapLaw := by
  cases c with
  | roster r => exact h.of_tap (s.setRing_tap _)
  | commit c => exact h.of_tap (s.setRing_tap _)
  | halt c => exact h
  | bulletin b => exact h.bulletinDeparts b

theorem State.TapLaw.send (h : s.TapLaw) (c : CellBytes) : (s.send c).TapLaw := h.of_tap (s.setTx_tap _)

theorem State.TapLaw.sendResult (h : s.TapLaw) (e : OutEntry) (rest : List OutEntry) :
    (s.sendResult e rest).TapLaw := by
  have removed : (s.setOrigin { s.origin with outstanding := rest }).TapLaw := h.of_tap (s.setOrigin_tap _)
  exact (removed.tapResult (s.resultOf e)).send _

theorem State.TapLaw.launchFrame (h : s.TapLaw) (number : Half) : (s.launchFrame number).TapLaw := by
  have absent : (s.setOrigin { s.origin with readyFrame := none }).TapLaw := h.of_tap (s.setOrigin_tap _)
  unfold State.launchFrame
  exact (absent.takeFrameMark number).send _

theorem State.TapLaw.depart (h : s.TapLaw) (d : Departure) : (s.depart d).TapLaw := by
  cases d with
  | silent => exact h.of_tap (s.setTx_tap _)
  | forward c rest => exact h.of_tap (s.setTx_tap _)
  | result e rest => exact h.sendResult e rest
  | frame n => exact h.launchFrame n
  | merge y => exact h.of_tap (s.launchMerge_tap y)
  | launch c rest =>
    have removed : (s.setTx { s.tx with launch := rest }).TapLaw := h.of_tap (s.setTx_tap _)
    exact (removed.launchDeparts c).send _
  | probe => exact h.of_tap (s.setTx_tap _)

theorem State.TapLaw.opportunity (h : s.TapLaw) : s.opportunity.TapLaw :=
  State.TapLaw.depart (h.of_tap (s.setNow_tap _)) _

/-! ## Commands of the timers -/

theorem State.TapLaw.lapLimitExpires (h : s.TapLaw) : s.lapLimitExpires.TapLaw := by
  unfold State.lapLimitExpires
  split
  · exact h
  · next entries launch _ =>
    have lost : ((s.reach (launch + lapLimitPeriods)).setOrigin (s.origin.lapExpired entries)).TapLaw := h.of_tap rfl
    exact (lost.raiseInRun _).ite lost

theorem State.TapLaw.commitLimitExpires (h : s.TapLaw) : s.commitLimitExpires.TapLaw := by
  unfold State.commitLimitExpires
  split
  · exact h
  · next d _ =>
    have stopped : ((s.reach d).setRing { s.ring with commitLimit := none }).TapLaw := h.of_tap rfl
    exact (stopped.raiseHalt _ _).ite stopped

theorem State.TapLaw.firstFrameExpires (h : s.TapLaw) : s.firstFrameExpires.TapLaw := by
  unfold State.firstFrameExpires
  split
  · exact h
  · exact State.TapLaw.raiseInRun (h.of_tap (s.setNow_tap _)) _

theorem State.TapLaw.frameMissingExpires (h : s.TapLaw) : s.frameMissingExpires.TapLaw := by
  unfold State.frameMissingExpires
  split
  · exact h
  · exact State.TapLaw.raiseInRun (h.of_tap (s.setNow_tap _)) _

/-- The beacon's STATUS record is offered to the queue (R170). -/
theorem State.TapLaw.beaconExpires (h : s.TapLaw) : s.beaconExpires.TapLaw := by
  unfold State.beaconExpires
  split
  · exact h
  · next d _ =>
    have restarted : ((s.reach d).setRing { s.ring with beacon := some (d + beaconPeriods) }).TapLaw := h.of_tap rfl
    exact restarted.emit _

/-! ## Every command -/

theorem State.tapLaw_reset : State.reset.TapLaw := ⟨Nat.zero_le 16, Nat.zero_le 14⟩

theorem exec_keeps_tapLaw (h : s.TapLaw) : ∀ c : Instr, exec c s = .next t → t.TapLaw
  | .reset, rfl => State.tapLaw_reset.of_tap rfl
  | .resetRelease strap, rfl => h.of_tap (s.releaseReset_tap strap)
  | .configAttemptFails phase, rfl => h.live_of_tap (State.attemptFails_tap · phase)
  | .retryWaitExpiry, rfl => h.live_of_tap State.retryExpires_tap
  | .configAttemptSucceeds image, rfl => h.live_of_tap (State.attemptSucceeds_tap · image)
  | .activityAppears, rfl => h.live_of_tap State.activity_tap
  | .aligningSilence, rfl => h.live_of_tap State.aligningSilent_tap
  | .lockGained, rfl => h.live_of_tap State.gainLock_tap
  | .silenceTimerExpiry active, rfl => h.live fun _ hu => hu.loseLock active
  | .cellError kind, rfl => h.live fun _ hu => hu.cellFails kind
  | .probe cell, rfl => h.arrive fun _ hu => hu.probeArrives cell
  | .roster cell, rfl => h.arrive fun _ hu => hu.rosterArrives cell
  | .commit cell, rfl => h.arrive fun _ hu => hu.commitArrives cell
  | .haltCell cell, rfl => h.arrive fun _ hu => hu.haltArrives cell
  | .frame cell, rfl => h.arrive fun _ hu => hu.filterPicture cell ((hu.takeFrameMark _).forward cell) hu
  | .merge cell, rfl => h.arrive fun u hu =>
      hu.filterPicture cell (hu.of_tap (u.mergeAtMember_tap cell)) (hu.of_tap (u.setOrigin_tap _))
  | .result cell, rfl => h.arrive fun _ hu => hu.filterPicture cell ((hu.tapResult _).forward cell) hu
  | .bulletin cell, rfl => h.arrive fun _ hu =>
      hu.filterPicture cell (hu.bulletinArrives cell) (hu.bulletinArrives cell)
  | .unknownKindCell cell, rfl => h.arrive fun u hu => hu.of_tap (u.unknownArrives_tap cell)
  | .departureOpportunity, rfl => h.live fun _ hu => hu.opportunity
  | .frameTimerExpiry, rfl => h.live_of_tap State.frameTimerExpires_tap
  | .lineSlotTimerExpiry, rfl => h.live_of_tap State.lineSlotExpires_tap
  | .lapLimitExpiry, rfl => h.live fun _ hu => hu.lapLimitExpires
  | .rosterTimerExpiry, rfl => h.live_of_tap State.rosterTimerExpires_tap
  | .commitLimitExpiry, rfl => h.live fun _ hu => hu.commitLimitExpires
  | .noOriginTimerExpiry, rfl => h.live_of_tap State.noOriginExpires_tap
  | .firstFrameLimitExpiry, rfl => h.live fun _ hu => hu.firstFrameExpires
  | .frameMissingTimerExpiry, rfl => h.live fun _ hu => hu.frameMissingExpires
  | .holdOffTimerExpiry, rfl => h.live_of_tap State.holdOffExpires_tap
  | .beaconTimerExpiry, rfl => h.live fun _ hu => hu.beaconExpires
  | .layerSetup words, rfl => h.live_of_tap (State.setupTaken_tap · (recordBytes words))
  | .line words, rfl => h.live_of_tap (State.lineTaken_tap · (recordBytes words))
  | .unknownRecord _, rfl => h.live_of_tap State.unknownTaken_tap
  | .cueDeparts, rfl => h.live_of_tap State.cueLeaves_tap
  | .tapRecordDeparts ready, rfl => h.live fun _ hu => hu.tapLeaves ready

theorem step_keeps_tapLaw (h : s.TapLaw) (ht : step s = .next t) : t.TapLaw := by
  unfold step at ht
  split at ht
  · cases ht
    exact h
  · next c rest _ => exact exec_keeps_tapLaw (h.of_tap (s.setPending_tap rest)) c ht

end

/-- Settles O57: the queue is empty after reset, and each command only offers records to it or takes its head away
(R163, R164). -/
theorem everyStepKeepsTheTapLaw : Obligations.EveryStepKeepsTheTapLaw :=
  ⟨State.tapLaw_reset, fun _ _ => step_keeps_tapLaw⟩

end Sys2Proof.Machine
end

section
/-! SUPPORT. What a command can do, said once: a chain of moves, each of which changes few of the blocks that the laws of
a state look at. -/
namespace Sys2Proof.Machine

/-! ## The blocks the laws look at, and what leaves them as they stand -/

/-- What the laws of a state look at, but for the lengths of the forward and cue queues. -/
structure Control where
  inReset : Bool
  serial : Serial
  pending : List Instr
  loader : Loader
  lock : LockState
  sync : SyncState
  previous : Option Nat
  clean : Nat
  bad : Nat
  qualified : Bool
  ring : Ring
  layers : Layers
  origin : OriginEngine
  launch : List LaunchCell
  probePosition : Nat
  pins : Pins

def State.control (s : State) : Control :=
  { inReset := s.inReset, serial := s.serial, pending := s.pending, loader := s.loader, lock := s.rx.lock
    sync := s.checker.sync, previous := s.checker.previous, clean := s.checker.clean, bad := s.checker.bad
    qualified := s.checker.qualified, ring := s.ring, layers := s.layers, origin := s.origin, launch := s.tx.launch
    probePosition := s.tx.probePosition, pins := s.pins }

/-- The cue queue holds at most 8 cues, and a cue that has begun to leave is one of them (R57). -/
def Source.CuesBounded (v : Source) : Prop := v.cues.length ≤ 8 ∧ (v.cueBegun = true → v.cues ≠ [])

/-- `t` is `s` with changes that no law looks at, the forward and cue queues kept in their bounds. -/
structure State.Aside (s t : State) : Prop where
  control : t.control = s.control
  forward : s.tx.forward.length ≤ 4 → t.tx.forward.length ≤ 4
  cues : s.source.CuesBounded → t.source.CuesBounded

section
variable {s t u : State}

theorem State.Aside.refl (s : State) : s.Aside s := ⟨rfl, id, id⟩

theorem State.Aside.trans (h : s.Aside t) (k : t.Aside u) : s.Aside u :=
  ⟨k.control.trans h.control, k.forward ∘ h.forward, k.cues ∘ h.cues⟩

theorem State.Aside.ite {c : Prop} [Decidable c] (ht : s.Aside t) (hu : s.Aside u) : s.Aside (if c then t else u) := by
  split
  · exact ht
  · exact hu

/-- Changes outside the control blocks that keep the forward queue and the cues as they stand. -/
theorem State.Aside.of_same (hc : t.control = s.control) (hf : t.tx.forward = s.tx.forward)
    (hq : t.source.cues = s.source.cues) (hb : t.source.cueBegun = s.source.cueBegun) : s.Aside t :=
  ⟨hc, fun h => hf ▸ h, fun h => by unfold Source.CuesBounded; rw [hq, hb]; exact h⟩

end

/-! ## The source port -/

theorem State.aside_refuse (s : State) (r : Reason) (n : Nat) : s.Aside (s.refuse r n) := by
  rw [State.refuse_eq]
  exact .of_same rfl rfl rfl rfl

theorem State.aside_release (s : State) (p : Slot → Bool) : s.Aside (s.release p) :=
  .trans (t := s.setSource { s.source with stores := s.source.stores.map (releaseOf p) }) (.of_same rfl rfl rfl rfl)
    (State.aside_refuse _ _ _)

theorem State.aside_lineBegun (s : State) (y : Nat) : s.Aside (s.lineBegun y) :=
  .trans (t := s.setSource { s.source with mergeLine := some y }) (.of_same rfl rfl rfl rfl)
    (State.aside_release _ _)

theorem State.aside_beginLine (s : State) (y : Nat) : s.Aside (s.beginLine y) :=
  .ite (.refl s) (s.aside_lineBegun y)

theorem State.aside_issueCue (s : State) (y : Nat) : s.Aside (s.issueCue y) := by
  unfold State.issueCue
  split
  · refine ⟨rfl, id, fun _ => ⟨?_, fun _ => List.append_ne_nil_of_right_ne_nil _ (List.cons_ne_nil _ _)⟩⟩
    rw [State.setSource_source, List.length_append, List.length_singleton]
    omega
  · exact .refl s

theorem State.aside_lineStartCue (s : State) (y : Nat) : s.Aside (s.lineStartCue y) :=
  .ite (s.aside_issueCue _) (.refl s)

theorem State.aside_issueCues (l : List Nat) (s : State) : s.Aside (l.foldl State.issueCue s) := by
  induction l generalizing s with
  | nil => exact .refl s
  | cons y ys ih => exact (s.aside_issueCue y).trans (ih _)

theorem State.aside_sourceAtMark (s : State) : s.Aside s.sourceAtMark := by
  have emptied : s.Aside ((s.release fun _ => true).setSource
      { (s.release fun _ => true).source with mergeLine := none, lastMissed := Four.all none }) :=
    (s.aside_release _).trans (.of_same rfl rfl rfl rfl)
  exact emptied.trans (State.aside_issueCues _ _)

theorem State.aside_readStores (s : State) (span y : Nat) : s.Aside (s.readStores span y) := by
  obtain ⟨stores, missedLines, missed, hr, _⟩ := s.readStores_source span y
  rw [hr]
  exact .of_same rfl rfl rfl rfl

theorem State.aside_spanMerged (s : State) (span y : Nat) : s.Aside (s.spanMerged span y) := by
  have read := s.aside_readStores span y
  have cued := read.trans (.ite (c := span = 0) (State.aside_lineStartCue _ y) (.refl _))
  exact cued.trans (.ite (State.aside_release _ _) (.refl _))

theorem State.aside_storeLine (s : State) (l : LineRecord) : s.Aside (s.storeLine l) := .of_same rfl rfl rfl rfl

theorem State.aside_lineTaken (s : State) (r : List Byte) : s.Aside (s.lineTaken r) := by
  unfold State.lineTaken
  split
  · exact s.aside_refuse _ _
  · split
    · exact s.aside_refuse _ _
    · split
      · exact s.aside_refuse _ _
      · exact s.aside_storeLine _

theorem State.aside_unknownTaken (s : State) : s.Aside s.unknownTaken := .ite (s.aside_refuse _ _) (s.aside_refuse _ _)

theorem State.aside_cueLeaves (s : State) : s.Aside s.cueLeaves := by
  unfold State.cueLeaves
  split
  · exact .refl s
  · next c rest hq =>
    refine ⟨rfl, id, fun ⟨atMost, _⟩ => ⟨?_, fun begun => absurd begun Bool.false_ne_true⟩⟩
    rw [hq] at atMost
    exact Nat.le_of_succ_le atMost

/-! ## Tap, forward queue and cells -/

theorem State.aside_setTap (s : State) (v : Tap) : s.Aside (s.setTap v) := .of_same rfl rfl rfl rfl

theorem State.aside_tapResult (s : State) (d : ResultData) : s.Aside (s.tapResult d) := by
  obtain ⟨v, hv, _⟩ := s.tapResult_tap d
  exact hv ▸ s.aside_setTap v

theorem State.aside_tapAtMark (s before : State) (frame : Half) : s.Aside (s.tapAtMark before frame) := s.aside_setTap _

theorem State.aside_tapLeaves (s : State) (ready : Bool) : s.Aside (s.tapLeaves ready) := by
  unfold State.tapLeaves
  split
  · exact s.aside_setTap _
  · exact .refl s

theorem State.aside_forward (s : State) (c : CellBytes) : s.Aside (s.forward c) := by
  obtain ⟨cells, overflow, hf, bound⟩ := s.forward_tx c
  rw [hf]
  exact ⟨rfl, bound, id⟩

theorem State.aside_flushForward (s : State) : s.Aside s.flushForward := ⟨rfl, fun _ => Nat.zero_le 4, id⟩

theorem State.aside_send (s : State) (c : CellBytes) : s.Aside (s.send c) := .of_same rfl rfl rfl rfl

theorem State.aside_validBoundary (s : State) : s.Aside s.validBoundary := .of_same rfl rfl rfl rfl

theorem State.aside_countStale (s : State) : s.Aside s.countStale := .of_same rfl rfl rfl rfl

theorem State.aside_clearFrameErrors (s : State) : s.Aside s.clearFrameErrors := .of_same rfl rfl rfl rfl

theorem State.aside_reach (s : State) (d : Nat) : s.Aside (s.reach d) := .of_same rfl rfl rfl rfl

theorem State.aside_mergeAtMember (s : State) (c : CellBytes) : s.Aside (s.mergeAtMember c) := by
  unfold State.mergeAtMember
  refine .ite ?_ ?_
  · exact .trans (t := s.setMerge { s.merge with mismatch := satInc s.merge.mismatch }) (.of_same rfl rfl rfl rfl)
      (State.aside_forward _ c)
  · exact ((s.aside_beginLine _).trans (State.aside_spanMerged _ _ _)).trans (State.aside_forward _ _)

theorem State.aside_bulletinArrives (s : State) (c : CellBytes) : s.Aside (s.bulletinArrives c) := by
  unfold State.bulletinArrives
  refine .ite (.ite (.of_same rfl rfl rfl rfl) (.refl s)) (.ite ?_ (.refl s))
  exact .trans (t := (s.recordHealth _).emit _) (.of_same rfl rfl rfl rfl) (State.aside_forward _ c)

theorem State.aside_bulletinDeparts (s : State) (b : Bulletin) : s.Aside (s.bulletinDeparts b) :=
  .ite (.of_same rfl rfl rfl rfl) (.of_same rfl rfl rfl rfl)

theorem State.aside_unknownArrives (s : State) (c : CellBytes) : s.Aside (s.unknownArrives c) := by
  unfold State.unknownArrives
  split
  case h_4 => exact s.aside_countStale
  case h_6 => exact s.aside_forward c
  all_goals exact .refl s

/-! ## Halts -/

/-- What a halt entry leaves of the blocks the laws look at (R152, R154). -/
theorem State.HaltEntered.control {s t : State} {h : HaltRecord} {cell : CellBytes} (e : s.HaltEntered h cell t) :
    t.control =
      { s.control with
        clean := 0, qualified := false, origin := s.origin.cleared, launch := [.halt cell]
        ring := (s.ring.recordHalt h).atHalt s.now, pins := { s.pins with ringOk := false, origin := false } } := by
  obtain ⟨layers, loader, rx, _, inReset, serial, pending⟩ := e.kept
  simp only [State.control, e.ring, e.pins, e.queues, e.origin, e.checker, layers, loader, rx, inReset, serial, pending]
  rfl

theorem State.HaltEntered.cuesBounded {s t : State} {h : HaltRecord} {cell : CellBytes} (e : s.HaltEntered h cell t) :
    t.source.CuesBounded := by
  cases hq : s.source.cues with
  | nil =>
    obtain ⟨cues, begun⟩ := e.cues.1 hq
    simp [Source.CuesBounded, cues, begun]
  | cons c rest =>
    obtain ⟨cues, begun⟩ | ⟨_, cues, begun⟩ := e.cues.2 c rest hq
    · simp [Source.CuesBounded, cues]
    · simp [Source.CuesBounded, cues, begun]

/-! ## The moves -/

/-- A checker in HUNT with nothing held over (R122, R124). -/
structure Checker.Hunts (c : Checker) : Prop where
  sync : c.sync = .hunt
  previous : c.previous = none
  clean : c.clean = 0
  bad : c.bad = 0
  qualified : c.qualified = false

/-- What R118 and R122 say of a checker beside its clean run and its qualified flag. -/
structure Checker.Sound (c : Checker) : Prop where
  placed : c.sync = .synced → c.previous.isSome = true
  range : ∀ p, c.previous = some p → p ≤ 126
  bad : c.bad ≤ 3

/-- What stands where a halt can be entered: ROLL or RUN, or a frame watch or an outstanding entry, which a safe station
has in RUN alone. -/
def State.MayHalt (s : State) : Prop :=
  s.ring.state = .roll ∨ s.ring.state = .run ∨ s.ring.firstFrame.isSome = true ∨ s.ring.frameMissing.isSome = true ∨
    s.origin.outstanding ≠ []

/-- The committed ring, the first-frame limit and the origin engine at entry to RUN in a role (R144, R145). -/
def State.MayRun (s : State) (role : Role) (k : Committed) (engine : OriginEngine) : Prop :=
  (k.roster[k.position]?).map RosterEntry.serial = some s.serial ∧ 1 ≤ k.format.spans ∧
    (role = .member ∧ k.position ≠ 0 ∧ engine = s.origin ∨
      role = .origin ∧ k.position = 0 ∧ engine = s.origin.started s.now)

/-- What the departure of a launch cell makes of the ring controller (R138, R141). -/
inductive LaunchCell.Starts (r : Ring) : LaunchCell → Ring → Prop
  | roster (c : RosterCell) (d : Nat) : Starts r (.roster c) { r with rosterTimer := some d }
  | commit (c : CommitCell) (d : Nat) : Starts r (.commit c) { r with commitLimit := some d }
  | halt (c : CellBytes) : Starts r (.halt c) r
  | bulletin (b : Bulletin) : Starts r (.bulletin b) r

/-- One move of a station. A command is a chain of moves; RESET and the frame timer's expiry stand apart. -/
inductive State.Move (s : State) : State → Prop
  | aside {t : State} : s.Aside t → Move s t
  | layers (l : Layers) : (s.LayerLaw → (s.setLayers l).LayerLaw) → Move s (s.setLayers l)
  /- Start-up (chapter 11) -/
  | released : s.inReset = true → Move s ((s.setInReset false).setLoader s.loader.begin)
  | loads (l : Loader) : s.loader.state = .reading → (s.loader.retry ≤ 3 → l.retry ≤ 3) → Move s (s.setLoader l)
  | leavesForRelay (l : Loader) (cause : RelayCause) :
    (s.inReset = true ∧ l = s.loader ∨
      s.loader.state = .reading ∧ l.state ≠ .reading ∧ l.retry = s.loader.retry) → cause ≠ .none →
      Move s (((s.setInReset false).setLoader l).darkToRelay cause)
  | leavesForListen (l : Loader) (c : ConfigCopy) :
    s.loader.state = .reading → l.state ≠ .reading → l.retry = s.loader.retry →
      Move s ((s.setLoader l).setRing { s.ring with state := .listen, config := some c }).startBeacon
  /- The link (chapters 6 and 7) -/
  | lockMoves (r : Receiver) : s.rx.lock ≠ .locked → Move s (s.setRx r)
  | checks (c : Checker) : (s.LinkLaw → (s.setChecker c).LinkLaw) → Move s (s.setChecker c)
  | linkLost (r : Receiver) (c : Checker) : s.ring.state ≠ .roll → s.ring.state ≠ .run → c.Hunts →
      Move s ((s.setRx r).setChecker c)
  | returnsToListen (r : Receiver) (c : Checker) : s.ring.state = .roll → c.Hunts →
      Move s ((s.setRx r).setChecker c).returnToListen
  /- Ring formation (chapter 8) -/
  | entersRoll : s.ring.state = .listen → s.rx.lock = .locked → s.checker.qualified = true → Move s s.enterRoll
  | hearsRoster (flag : Bool) (d : Timer) : s.ring.state = .roll ∨ s.ring.noOriginTimer.isSome = true →
      Move s (s.setRing { s.ring with noOrigin := flag, noOriginTimer := d })
  | relaunches : s.ring.rosterTimer.isSome = true →
      Move s (s.setRing { s.ring with rosterTimer := none }).launchRoster
  | elects (r : RosterCell) : s.ring.state = .roll → Move s (s.elect r)
  | demotes (d : Option Demotion) : Move s (s.setRing { s.ring with demotion := d })
  | entersRun (role : Role) (k : Committed) (limit : Timer) (engine : OriginEngine) : s.ring.state = .roll →
      s.MayRun role k engine → (role ≠ .member → limit = none) →
      Move s ((s.enterRun role k limit).setOrigin engine)
  | commitLimitStops : Move s (s.setRing { s.ring with commitLimit := none })
  | watches (first missing : Timer) : s.ring.role = .member →
      Move s (s.setRing { s.ring with firstFrame := first, frameMissing := missing })
  /- Halt and recovery (chapter 9) -/
  | halts (r : Receiver) (c : Checker) (engine : OriginEngine) (h : HaltRecord) (cell : CellBytes) : s.MayHalt →
      (s.LinkLaw → c.Sound) → Move s ((((s.setRx r).setChecker c).setOrigin engine).enterHalt h cell)
  | faultHeldOff : s.ring.state = .halt → Move s s.faultInHoldOff
  | holdOffEnds : s.ring.holdOff.isSome = true →
      Move s (s.setRing { s.ring with holdOff := none, state := .listen })
  | demoted (cause : RelayCause) : s.ring.holdOff.isSome = true → cause ≠ .none →
      Move s ((s.setRing { s.ring with holdOff := none }).enterRelay cause)
  | beacons (d : Nat) : s.ring.beacon.isSome = true → Move s (s.setRing { s.ring with beacon := some d })
  /- Departures (chapter 6) -/
  | queuesBulletin (b : Bulletin) : Move s (s.place (.bulletin b))
  | probeLeaves : Move s s.sendProbe
  | launchLeaves (c : LaunchCell) (rest : List LaunchCell) (ring : Ring) : s.tx.launch = c :: rest →
      c.Starts s.ring ring → Move s ((s.setTx { s.tx with launch := rest }).setRing ring)
  /- The origin engine (chapter 5) -/
  | slotExpires (t : FrameTimer) (height k : Nat) : s.origin.frameTimer = some t → s.origin.lineSlot = some k →
      Move s (s.setOrigin (s.origin.slotExpired height k))
  | returns (v : BlendValues) (m : MergeCell) : Move s (s.setOrigin (s.origin.returned v m))
  | lapExpires (entries : List OutEntry) (launch : Nat) : loseOldest s.origin.outstanding = some (entries, launch) →
      s.origin.lapCount ≠ 2 → Move s (s.setOrigin (s.origin.lapExpired entries))
  | resultLeaves (e : OutEntry) (rest : List OutEntry) : s.origin.outstanding = e :: rest →
      Move s (s.setOrigin { s.origin with outstanding := rest })
  | frameLeaves (f : Half) : s.origin.offeredFrame = some f →
      Move s (s.setOrigin { s.origin with readyFrame := none })
  | spanLeaves (y now : Nat) : s.origin.offeredMerge = some y →
      Move s (s.setOrigin (s.origin.launched s.format.spans y now))

/-- `t` is reached from `s` by a chain of moves. -/
abbrev State.Moves : State → State → Prop := Relation.ReflTransGen State.Move

end Sys2Proof.Machine
end

section
/-! SUPPORT. Every command but RESET and the frame timer's expiry is a chain of moves. -/
namespace Sys2Proof.Machine

section
variable {s t u : State}

theorem State.Moves.aside (h : s.Aside t) : s.Moves t := .single (.aside h)

theorem State.Moves.ite {c : Prop} [Decidable c] (ht : c → s.Moves t) (hu : ¬c → s.Moves u) :
    s.Moves (if c then t else u) := by
  split
  · next h => exact ht h
  · next h => exact hu h

/-! ## Halts and notices -/

theorem State.LinkLaw.sound (h : s.LinkLaw) : s.checker.Sound := by
  obtain ⟨_, _, placed, range, _, bad⟩ := h
  exact ⟨placed, range, bad⟩

theorem State.moves_enterHalt (h : s.MayHalt) (r : HaltRecord) (cell : CellBytes) : s.Moves (s.enterHalt r cell) :=
  .single (.halts s.rx s.checker s.origin r cell h State.LinkLaw.sound)

theorem State.moves_raiseHalt (h : s.MayHalt) (cause : HaltCause) (epoch : Byte) :
    s.Moves (s.raiseHalt cause epoch) :=
  State.moves_enterHalt h _ _

theorem State.moves_raiseDemoting (h : s.MayHalt) (d : Demotion) (cause : HaltCause) :
    s.Moves (s.raiseDemoting d cause) :=
  .head (.demotes (some d)) (State.moves_raiseHalt (s := s.setRing { s.ring with demotion := some d }) h _ _)

/-- A checker that hunts holds nothing that R118 or R122 bounds. -/
theorem Checker.Hunts.sound {c : Checker} (h : c.Hunts) : c.Sound where
  placed synced := by rw [h.sync] at synced; cases synced
  range p hp := by rw [h.previous] at hp; cases hp
  bad := h.bad ▸ Nat.zero_le 3

/-- A receiver and a hunting checker that the station halts with, in ROLL or RUN. -/
theorem State.moves_raiseHalt_hunting (h : s.MayHalt) (r : Receiver) {c : Checker} (hc : c.Hunts) (cause : HaltCause)
    (epoch : Byte) : s.Moves (((s.setRx r).setChecker c).raiseHalt cause epoch) :=
  .single (.halts r c s.origin _ _ h fun _ => hc.sound)

theorem State.moves_lockLostNotice (r : Receiver) {c : Checker} (hc : c.Hunts) :
    s.Moves ((s.setRx r).setChecker c).lockLostNotice := by
  have quiet : s.ring.state ≠ .roll → s.ring.state ≠ .run → s.Moves ((s.setRx r).setChecker c) :=
    fun roll run => .single (.linkLost r c roll run hc)
  unfold State.lockLostNotice
  cases hs : s.ring.state <;> rw [hs] at quiet <;> simp only [State.setChecker_ring, State.setRx_ring, hs]
  case dark => exact quiet nofun nofun
  case listen => exact quiet nofun nofun
  case roll => exact .single (.returnsToListen r c hs hc)
  case run => exact State.moves_raiseHalt_hunting (.inr (.inl hs)) r hc _ _
  case halt => exact (quiet nofun nofun).tail (.faultHeldOff hs)
  case relay => exact (quiet nofun nofun).tail (.aside (State.aside_flushForward _))

theorem State.moves_syncLostNotice {c : Checker} (hc : c.Hunts) : s.Moves (s.setChecker c).syncLostNotice := by
  have quiet : s.ring.state ≠ .roll → s.ring.state ≠ .run → s.Moves (s.setChecker c) :=
    fun roll run => .single (.linkLost s.rx c roll run hc)
  unfold State.syncLostNotice
  cases hs : s.ring.state <;> rw [hs] at quiet <;> simp only [State.setChecker_ring, hs]
  case dark => exact quiet nofun nofun
  case listen => exact quiet nofun nofun
  case roll => exact .single (.returnsToListen s.rx c hs hc)
  case run => exact State.moves_raiseHalt_hunting (.inr (.inl hs)) s.rx hc _ _
  case halt => exact (quiet nofun nofun).tail (.faultHeldOff hs)
  case relay => exact quiet nofun nofun

theorem State.degraded_run {before : State} (h : s.degraded before = true) : s.ring.state = .run := by
  unfold State.degraded at h
  simp only [Bool.and_eq_true, beq_iff_eq] at h
  exact h.1.1

theorem State.moves_degradeTest (before : State) : s.Moves (s.degradeTest before) :=
  .ite (fun h => State.moves_raiseHalt (.inr (.inl (State.degraded_run h))) _ _) fun _ => .refl

theorem State.moves_tryRoll : s.Moves s.tryRoll :=
  .ite (fun ⟨listen, locked, qualified⟩ => .single (.entersRoll listen locked qualified)) fun _ => .refl

/-! ## FRAME marks -/

/-- A withdrawn or kept entry keeps its ranges (R30). -/
theorem ActiveEntry.checkWindow_inRange {a : ActiveEntry} (f : Format) (h : a.setup.InRange) :
    (a.checkWindow f).1.setup.InRange ∧ (a.checkWindow f).1.current = a.current := by
  unfold ActiveEntry.checkWindow
  split
  · exact ⟨⟨Nat.zero_le 7, h.2⟩, rfl⟩
  · exact ⟨h, rfl⟩

/-- A fade step keeps the cover in its range (R35). -/
theorem ActiveEntry.fade_inRange {a : ActiveEntry} (h : a.setup.InRange) (hc : a.current ≤ 16) :
    a.fade.setup.InRange ∧ a.fade.current ≤ 16 := by
  obtain ⟨same, _, atMost⟩ := a.fade_between
  have target : a.setup.target ≤ 16 := by
    obtain ⟨_, _, _, _, _, _, _, _, target, _⟩ := h
    exact target
  exact ⟨same ▸ h, atMost.trans (max_le hc target)⟩

theorem layerAtMark_inRange {sh : ShadowEntry} {a : ActiveEntry} (f : Format) (first : Bool) (hs : sh.setup.InRange)
    (ha : a.setup.InRange) (hc : a.current ≤ 16) :
    (layerAtMark f first sh a).1.setup.InRange ∧ (layerAtMark f first sh a).2.1.setup.InRange ∧
      (layerAtMark f first sh a).2.1.current ≤ 16 := by
  have cover : sh.setup.cover ≤ 16 := by
    obtain ⟨_, _, _, _, _, _, _, cover, _⟩ := hs
    exact cover
  unfold layerAtMark
  split
  · obtain ⟨range, same⟩ := ActiveEntry.checkWindow_inRange (a := { setup := sh.setup, current := sh.setup.cover }) f hs
    exact ⟨hs, range, same.le.trans cover⟩
  · split
    · obtain ⟨range, same⟩ := ActiveEntry.checkWindow_inRange f ha
      exact ⟨hs, ActiveEntry.fade_inRange range (same.le.trans hc)⟩
    · exact ⟨hs, ActiveEntry.fade_inRange ha hc⟩

theorem State.moves_layersAtMark (first : Bool) : s.Moves (s.layersAtMark first) := by
  obtain ⟨layers, n, hl, marked⟩ := s.layersAtMark_shape first
  rw [hl]
  refine .tail (.single (.layers layers fun law i => ?_)) (.aside (State.aside_refuse _ _ n))
  obtain ⟨shadow, active, current⟩ := law i
  obtain ⟨hs, ha⟩ := Prod.mk.inj (marked i)
  rw [State.setLayers_layers, hs, ha]
  exact layerAtMark_inRange s.format first shadow active current

theorem State.moves_ringAtMark : s.Moves s.ringAtMark :=
  .ite (fun member => .single (.watches _ _ member)) fun _ => .refl

/-- The bulletin a station builds at a FRAME mark, with the tap drops that were chosen (R171). -/
def State.bulletinFor (s before : State) (frame drops : Half) : Bulletin :=
  { sender := s.stationId, position := s.position.getD 0, role := s.ring.role, frame := frame
    counters :=
      { s.counters s.ring.role with
        cellErrors := before.filter.cellErrors, probeErrors := before.checker.frameErrors, tapDrops := drops }
    silent := silentFrom 0 s.bulletin.health }

/-- The bulletin unit at a FRAME mark, said once (R172, R175). -/
theorem State.bulletinAtMark_eq (s before : State) (frame : Half) :
    ∃ n drops, (drops = before.tap.drops ∨ drops = s.tap.drops) ∧ s.bulletinAtMark before frame =
      ((s.setFreeCount n).place (.bulletin (s.bulletinFor before frame drops))).setBulletin
        { health := s.bulletin.health.map HealthEntry.aged, outstanding := none
          lost := if s.bulletin.outstanding = none then s.bulletin.lost else satInc s.bulletin.lost
          skipped := if queuedKind .bulletin s.tx.launch then satInc s.bulletin.skipped else s.bulletin.skipped } := by
  unfold State.bulletinAtMark
  cases ho : s.bulletin.outstanding with
  | none =>
    obtain ⟨drops, n, hd, chosen⟩ := s.bulletinDrops_free before.tap.drops s.tap.drops
    refine ⟨n, drops, chosen, ?_⟩
    simp only [hd, State.setFreeCount_tx]
    split <;> simp [State.setBulletin, State.place, State.setTx, State.setFreeCount, ho] <;> rfl
  | some f =>
    obtain ⟨drops, n, hd, chosen⟩ :=
      (s.setBulletin { s.bulletin with lost := satInc s.bulletin.lost, outstanding := none }).bulletinDrops_free
        before.tap.drops s.tap.drops
    refine ⟨n, drops, chosen, ?_⟩
    simp only [State.setBulletin_tap, hd, State.setFreeCount_tx, State.setBulletin_tx]
    split <;> simp [State.setBulletin, State.place, State.setTx, State.setFreeCount] <;> rfl

theorem State.moves_bulletinAtMark (before : State) (frame : Half) : s.Moves (s.bulletinAtMark before frame) := by
  obtain ⟨n, drops, _, hb⟩ := s.bulletinAtMark_eq before frame
  generalize State.bulletinFor s before frame drops = b at hb
  have drawn : s.Moves (s.setFreeCount n) := .aside (.of_same rfl rfl rfl rfl)
  have queued : s.Moves ((s.setFreeCount n).place (.bulletin b)) := drawn.tail (.queuesBulletin b)
  rw [hb]
  exact queued.tail (.aside (.of_same rfl rfl rfl rfl))

theorem State.moves_takeFrameMark (frame : Half) : s.Moves (s.takeFrameMark frame) := by
  have taken : s.Moves (s.setMerge { s.merge with lastTaken := some frame }).sourceAtMark :=
    .aside (.trans (t := s.setMerge { s.merge with lastTaken := some frame }) (.of_same rfl rfl rfl rfl)
      (State.aside_sourceAtMark _))
  have watched := (taken.trans (State.moves_layersAtMark s.merge.lastTaken.isNone)).trans State.moves_ringAtMark
  have tapped := watched.tail (.aside (State.aside_tapAtMark _ s frame))
  exact (tapped.trans (State.moves_bulletinAtMark s frame)).tail (.aside (State.aside_clearFrameErrors _))

end

end Sys2Proof.Machine
end

section
/-! SUPPORT. Every command but RESET and the frame timer's expiry is a chain of moves: the commands, chapter by chapter. -/
namespace Sys2Proof.Machine

section
variable {s t u : State}

/-! ## Arrival -/

theorem State.moves_live {f : State → State} (h : s.inReset = false → s.Moves (f s)) : s.Moves (s.live f) :=
  .ite (fun _ => .refl) fun running => h (Bool.not_eq_true _ ▸ running)

theorem State.moves_arrive {f : State → State} (h : ∀ u : State, u.inReset = false → u.rx.lock = .locked → u.Moves (f u)) :
    s.Moves (s.arrive f) :=
  State.moves_live fun running => .ite
    (fun locked => .head (.aside s.aside_validBoundary) (h s.validBoundary running locked)) fun _ => .refl

theorem State.moves_filterPicture (c : CellBytes) {member origin : State → State}
    (hm : s.ring.state = .run → s.Moves (member s)) (ho : s.ring.state = .run → s.Moves (origin s)) :
    s.Moves (s.filterPicture c member origin) := by
  unfold State.filterPicture
  split
  case h_5 => exact .aside (s.aside_forward c)
  case h_6 run => exact .ite (fun _ => .aside s.aside_countStale) fun _ => .ite (fun _ => ho run) fun _ => hm run
  all_goals exact .refl

/-! ## Start-up -/

theorem State.moves_releaseReset (strap : Bool) : s.Moves (s.releaseReset strap) :=
  .ite
    (fun held => .ite (fun _ => .single (.leavesForRelay s.loader .strapped (.inl ⟨held, rfl⟩) nofun))
      fun _ => .single (.released held))
    fun _ => .refl

theorem Loader.inAttempt_reading {l : Loader} (h : l.inAttempt = true) : l.state = .reading := by
  unfold Loader.inAttempt at h
  simp only [Bool.and_eq_true, beq_iff_eq] at h
  exact h.1

/-- The reset that is not held needs no release. -/
theorem State.setInReset_running (h : s.inReset = false) : s.setInReset false = s := by
  unfold State.setInReset
  rw [← h]

theorem State.moves_attemptFails (running : s.inReset = false) (phase : AttemptPhase) :
    s.Moves (s.attemptFails phase) := by
  refine .ite (fun attempt => ?_) fun _ => .refl
  have reading := Loader.inAttempt_reading attempt
  refine .ite (fun room => .single (.loads _ reading fun _ => Nat.succ_le_of_lt room)) fun _ => ?_
  have left := State.Move.leavesForRelay (s := s) { s.loader with state := .absent, bus := busFailed phase }
    .configAbsent (.inr ⟨reading, nofun, rfl⟩) nofun
  rw [State.setInReset_running running] at left
  exact .single left

theorem State.moves_retryExpires : s.Moves s.retryExpires := by
  unfold State.retryExpires
  split
  · next d reading _ => exact .head (.aside (s.aside_reach d)) (.single (.loads (s := s.reach d) _ reading id))
  · exact .refl

theorem State.moves_attemptSucceeds (running : s.inReset = false) (image : List Byte) :
    s.Moves (s.attemptSucceeds image) := by
  refine .ite (fun attempt => ?_) fun _ => .refl
  have reading := Loader.inAttempt_reading attempt
  split
  · have left := State.Move.leavesForRelay (s := s)
      { s.loader with state := .invalid, buffer := image, bus := busSucceeded image } .configInvalid
      (.inr ⟨reading, nofun, rfl⟩) nofun
    rw [State.setInReset_running running] at left
    exact .single left
  · next c _ =>
    exact .head (.leavesForListen { s.loader with state := .done, buffer := image, bus := busSucceeded image } c.checked
      reading nofun rfl) State.moves_tryRoll

/-! ## The receiver -/

theorem State.moves_activity : s.Moves s.activity :=
  .ite (fun none => .single (.lockMoves _ (by rw [none]; nofun))) fun _ => .refl

theorem State.moves_aligningSilent : s.Moves s.aligningSilent :=
  .ite (fun aligning => .single (.lockMoves _ (by rw [aligning]; nofun))) fun _ => .refl

theorem State.moves_gainLock : s.Moves s.gainLock :=
  .ite (fun aligning => .head (.lockMoves _ (by rw [aligning]; nofun)) State.moves_tryRoll) fun _ => .refl

theorem Checker.lockLost_hunts (c : Checker) : c.lockLost.Hunts := ⟨rfl, rfl, rfl, rfl, rfl⟩

theorem Checker.loseSync_hunts (c : Checker) : c.loseSync.Hunts := ⟨rfl, rfl, rfl, rfl, rfl⟩

theorem State.moves_loseLock (active : Bool) : s.Moves (s.loseLock active) := by
  unfold State.loseLock
  split
  · exact .refl
  · exact .refl
  · exact .head (.aside (s.aside_reach (s.rx.silence.getD 0)))
      (State.moves_lockLostNotice (s := s.reach _) _ (Checker.lockLost_hunts _))

theorem State.moves_countCellError : s.Moves s.countCellError :=
  .head (.aside (t := s.setFilter { s.filter with cellErrors := satInc s.filter.cellErrors }) (.of_same rfl rfl rfl rfl))
    (State.moves_degradeTest s)

theorem State.moves_cellFails (kind : CellErrorKind) : s.Moves (s.cellFails kind) := by
  unfold State.cellFails
  split
  case h_1 => exact State.moves_countCellError
  case h_2 => exact .head (.aside s.aside_validBoundary) State.moves_countCellError
  all_goals exact .refl

/-! ## The link checker -/

theorem probeAdvance_le (p : Nat) : probeAdvance p ≤ 126 := Nat.le_of_lt_succ (Nat.mod_lt _ (by decide))

/-- HUNT keeps the link's law (R119). -/
theorem State.LinkLaw.hunting (h : s.LinkLaw) (hunt : s.checker.sync = .hunt) (start : Nat) (clean : Bool) :
    (s.setChecker (s.checker.hunting start clean)).LinkLaw := by
  obtain ⟨linked, qualified, _, _, atMost, bad⟩ := h
  have away : ¬(s.ring.state = .roll ∨ s.ring.state = .run) := fun inRing => by
    rw [(linked inRing).2] at hunt; cases hunt
  have unqualified : s.checker.qualified ≠ true := fun q => by rw [qualified q] at hunt; cases hunt
  unfold Checker.hunting
  split
  · exact ⟨fun inRing => absurd inRing away, fun q => absurd q unqualified,
      fun synced => absurd (hunt.symm.trans synced) nofun, nofun, atMost, bad⟩
  · next inRange =>
    have range : start ≤ 126 := by
      simp only [not_or, Nat.not_lt] at inRange
      exact inRange.1
    split
    · exact ⟨fun inRing => absurd inRing away, fun _ => rfl, fun _ => rfl,
        fun p hp => Option.some.inj hp ▸ range, Nat.zero_le _, Nat.zero_le _⟩
    · exact ⟨fun inRing => absurd inRing away, fun q => absurd q unqualified, fun _ => rfl,
        fun p hp => Option.some.inj hp ▸ range, atMost, bad⟩

/-- A probe counted in SYNCED keeps the link's law, short of the fourth bad probe in a row (R120 to R123). -/
theorem State.LinkLaw.after (h : s.LinkLaw) (synced : s.checker.sync = .synced) (q : Nat) (cell : CellBytes)
    (frame : Option Half) (short : (s.checker.after q cell frame).bad ≠ 4) :
    (s.setChecker (s.checker.after q cell frame)).LinkLaw := by
  obtain ⟨linked, _, _, _, _, bad⟩ := h
  refine ⟨fun inRing => ⟨(linked inRing).1, synced⟩, fun _ => synced, fun _ => rfl, fun p hp => ?_, ?_, ?_⟩
  · rw [← Option.some.inj hp]
    split
    · exact probeAdvance_le q
    · omega
  · show (if errorsOf q cell = 0 then min (s.checker.clean + 1) 64 else 0) ≤ 64
    split <;> omega
  · have same : (s.checker.after q cell frame).bad = if errorsOf q cell = 0 then 0 else s.checker.bad + 1 := rfl
    rw [State.setChecker_checker]
    rw [same] at short ⊢
    split_ifs at short ⊢ <;> omega

/-- A degraded halt and the loss of sync, in either order, leave the same blocks (R122, R130). -/
theorem State.aside_loseSync_raiseInRun (cause : HaltCause) :
    ((s.setChecker s.checker.loseSync).raiseInRun cause).Aside
      ((s.raiseInRun cause).setChecker (s.raiseInRun cause).checker.loseSync) := by
  have first := (s.setChecker s.checker.loseSync).enterHalt_entered
    { cause := cause, reporter := s.stationId, epoch := s.epoch }
    (haltCellOf { cause := cause, reporter := s.stationId, epoch := s.epoch })
  have second := s.enterHalt_entered { cause := cause, reporter := s.stationId, epoch := s.epoch }
    (haltCellOf { cause := cause, reporter := s.stationId, epoch := s.epoch })
  have same : ∀ v : State, (v.setChecker v.checker.loseSync).control =
      { v.control with sync := .hunt, previous := none, clean := 0, bad := 0, qualified := false } := fun _ => rfl
  refine ⟨?_, fun _ => ?_, fun _ => second.cuesBounded⟩
  · rw [same]
    exact (congrArg (fun c : Control => { c with sync := .hunt, previous := none, clean := 0, bad := 0, qualified := false })
      second.control).trans first.control.symm
  · have empty : (s.raiseInRun cause).tx.forward = [] := congrArg Transmitter.forward second.queues
    rw [State.setChecker_tx, empty]
    exact Nat.zero_le 4

theorem State.raiseHalt_ring_state (s : State) (cause : HaltCause) (epoch : Byte) :
    (s.raiseHalt cause epoch).ring.state = .halt :=
  congrArg Ring.state (s.enterHalt_entered _ _).ring

theorem State.syncLostNotice_of_halt (h : s.ring.state = .halt) : s.syncLostNotice = s.faultInHoldOff := by
  unfold State.syncLostNotice
  rw [h]

/-- The degraded notice taken first: the sync lost notice is then a fault during the hold-off (R157). -/
theorem State.moves_degradedFirst (run : s.ring.state = .run) (c : Checker) :
    s.Moves (((s.setChecker c).raiseInRun .degraded).setChecker
      ((s.setChecker c).raiseInRun .degraded).checker.loseSync).syncLostNotice := by
  have halted : s.Moves (((s.setChecker c).setChecker (s.setChecker c).checker.loseSync).raiseInRun .degraded) :=
    State.moves_raiseHalt_hunting (.inr (.inl run)) s.rx c.loseSync_hunts _ _
  have lost := halted.tail (.aside (State.aside_loseSync_raiseInRun (s := s.setChecker c) .degraded))
  have state : ((s.setChecker c).raiseInRun .degraded).ring.state = .halt := State.raiseHalt_ring_state _ _ _
  generalize (s.setChecker c).raiseInRun .degraded = raised at lost state
  rw [State.syncLostNotice_of_halt (s := raised.setChecker raised.checker.loseSync) state]
  exact lost.tail (.faultHeldOff state)

theorem State.moves_syncLost (c : Checker) (before : State) : s.Moves ((s.setChecker c).syncLost before) := by
  refine .ite (fun degraded => ?_) fun _ => State.moves_syncLostNotice c.loseSync_hunts
  have run : s.ring.state = .run := State.degraded_run (s := s.setChecker c) degraded
  have draws : s.Moves (s.setFreeCount (s.freeCount + 1)) := .aside (.of_same rfl rfl rfl rfl)
  refine .ite (fun _ => ?_) fun _ => draws.trans (State.moves_syncLostNotice c.loseSync_hunts)
  exact draws.trans (State.moves_degradedFirst (s := s.setFreeCount (s.freeCount + 1)) run c)

theorem State.moves_probeArrives (c : CellBytes) : s.Moves (s.probeArrives c) := by
  unfold State.probeArrives
  split
  · next p synced placed =>
    unfold State.probeSynced
    dsimp only
    rw [Checker.checked_after]
    refine .ite (fun _ => State.moves_syncLost _ s) fun short => ?_
    have counted := State.Move.checks (s := s) _ fun law => law.after synced p c s.merge.lastTaken short
    exact .ite (fun _ => .head counted State.moves_tryRoll) fun _ => .head counted (State.moves_degradeTest s)
  · next other =>
    refine .single (.checks _ fun law => law.hunting ?_ _ _)
    obtain ⟨_, _, placed, _⟩ := law
    cases hs : s.checker.sync with
    | hunt => rfl
    | synced =>
      obtain ⟨p, hp⟩ := Option.isSome_iff_exists.1 (placed hs)
      exact absurd hp (other p hs)

/-! ## Cells of the ring controller -/

theorem State.moves_rosterInRoll (roll : s.ring.state = .roll) (c : CellBytes) : s.Moves (s.rosterInRoll c) := by
  refine .ite (fun _ => ?_) fun _ => .refl
  have heard : s.Moves s.rosterHeard :=
    .ite (fun _ => .refl) fun _ => .single (.hearsRoster false (s.after noOriginPeriods) (.inl roll))
  have still : s.rosterHeard.ring.state = .roll := by
    unfold State.rosterHeard
    split <;> exact roll
  split
  case h_2 => exact heard.tail (.elects _ still)
  case h_5 => exact heard.trans (State.moves_raiseDemoting (.inl still) _ _)
  case h_6 => exact heard.trans (State.moves_raiseDemoting (.inl still) _ _)
  case h_7 => exact heard.tail (.aside (State.aside_forward _ _))
  all_goals exact heard

theorem State.moves_rosterArrives (c : CellBytes) : s.Moves (s.rosterArrives c) := by
  unfold State.rosterArrives
  split
  case h_3 roll => exact State.moves_rosterInRoll roll c
  case h_6 => exact .aside (s.aside_forward c)
  all_goals exact .refl

/-- The entry at the position of a serial holds that serial. -/
theorem positionOf_serial {serial : Serial} {entries : List RosterEntry} {p : Nat}
    (h : positionOf serial entries = some p) : (entries[p]?).map RosterEntry.serial = some serial := by
  obtain ⟨inRange, found, _⟩ := List.findIdx?_eq_some_iff_getElem.1 h
  rw [List.getElem?_eq_getElem inRange, Option.map_some, beq_iff_eq.1 found]

/-- Entry 0 of a COMMIT of good form gives the origin's serial. -/
theorem CommitCell.originSerial_eq {c : CommitCell} (h : c.goodForm = true) :
    (c.entries[0]?).map RosterEntry.serial = some c.originSerial := by
  obtain ⟨_, _, _, _, _, _, _, _, _, _, _, _, e, head, _⟩ := c.goodForm_iff.1 h
  unfold CommitCell.originSerial
  cases he : c.entries with
  | nil => rw [he] at head; cases head
  | cons => rfl

theorem CommitCell.goodForm_spans {c : CommitCell} (h : c.goodForm = true) : 1 ≤ c.format.spans := by
  obtain ⟨_, _, _, spans, _⟩ := c.goodForm_iff.1 h
  exact spans

/-- Entry to RUN, said once (R144 to R146). -/
theorem State.enterRun_enters (s : State) (role : Role) (k : Committed) (limit : Timer) :
    s.EntersRun role k limit s.origin (s.enterRun role k limit) := by
  simp only [State.EntersRun, State.enterRun, State.drivePins, State.dropRoster, State.clearFrameErrors, Ring.atRun,
    healthOf, State.setRing, State.setPins, State.setTx, State.setChecker, State.setFilter, State.setMerge,
    State.setBulletin, beq_self_eq_true, Bool.true_and]

@[simp] theorem State.enterRun_origin (s : State) (role : Role) (k : Committed) (limit : Timer) :
    (s.enterRun role k limit).origin = s.origin := by rw [s.enterRun_enters role k limit]

@[simp] theorem State.enterRun_now (s : State) (role : Role) (k : Committed) (limit : Timer) :
    (s.enterRun role k limit).now = s.now := by rw [s.enterRun_enters role k limit]

theorem State.moves_enterRun {role : Role} {k : Committed} {limit : Timer} (roll : s.ring.state = .roll)
    (may : s.MayRun role k s.origin) (limited : role ≠ .member → limit = none) : s.Moves (s.enterRun role k limit) := by
  have enters := State.Move.entersRun (s := s) role k limit s.origin roll may limited
  rw [← s.enterRun_origin role k limit] at enters
  exact .single enters

theorem State.moves_joinAsMember (roll : s.ring.state = .roll) (cell : CellBytes) {c : CommitCell}
    (form : c.goodForm = true) (other : c.originSerial ≠ s.serial) {p : Nat}
    (hp : positionOf s.serial c.entries = some p) : s.Moves (s.joinAsMember cell c p) := by
  have forwards := s.aside_forward cell
  have kept := forwards.control
  have roll' : (s.forward cell).ring.state = .roll := (congrArg (fun k => k.ring.state) kept).trans roll
  have serial : (s.forward cell).serial = s.serial := congrArg Control.serial kept
  have behind : p ≠ 0 := fun first => other <| by
    have listed := positionOf_serial hp
    rw [first, CommitCell.originSerial_eq form] at listed
    exact Option.some.inj listed
  refine .head (.aside forwards) (State.moves_enterRun roll' ⟨?_, CommitCell.goodForm_spans form, .inl ⟨rfl, behind, rfl⟩⟩
    fun member => absurd rfl member)
  rw [serial]
  exact positionOf_serial hp

theorem State.moves_ownCommitReturns (roll : s.ring.state = .roll) {c : CommitCell} (form : c.goodForm = true)
    (own : c.originSerial = s.serial) : s.Moves (s.ownCommitReturns c) := by
  unfold State.ownCommitReturns
  dsimp only
  rw [State.enterRun_origin, State.enterRun_now]
  exact .ite
    (fun _ => .single (.entersRun .origin _ none _ roll
      ⟨own ▸ CommitCell.originSerial_eq form, CommitCell.goodForm_spans form, .inr ⟨rfl, rfl, rfl⟩⟩ fun _ => rfl))
    fun _ => .refl

theorem State.moves_commitInRoll (roll : s.ring.state = .roll) (c : CellBytes) : s.Moves (s.commitInRoll c) := by
  refine .ite (fun form => .ite (fun own => State.moves_ownCommitReturns roll form own) fun other =>
    .ite (fun _ => .refl) fun _ => ?_) fun _ => .refl
  split
  · next p hp => exact State.moves_joinAsMember roll c form other hp
  · exact State.moves_raiseHalt (.inl roll) _ _

theorem State.moves_commitArrives (c : CellBytes) : s.Moves (s.commitArrives c) := by
  unfold State.commitArrives
  split
  case h_3 roll => exact State.moves_commitInRoll roll c
  case h_6 => exact .aside (s.aside_forward c)
  all_goals exact .refl

theorem State.moves_acceptHalt (h : s.MayHalt) (c : CellBytes) : s.Moves (s.acceptHalt c) := by
  unfold State.acceptHalt
  split
  · exact .refl
  · exact State.moves_enterHalt h _ c

theorem State.moves_haltArrives (c : CellBytes) : s.Moves (s.haltArrives c) := by
  unfold State.haltArrives
  split
  case h_3 roll => exact State.moves_acceptHalt (.inl roll) c
  case h_4 run => exact .ite (fun _ => State.moves_acceptHalt (.inr (.inl run)) c) fun _ => .refl
  case h_6 => exact .aside (s.aside_forward c)
  all_goals exact .refl

end

end Sys2Proof.Machine
end

section
/-! SUPPORT. Every command but RESET and the frame timer's expiry is a chain of moves: departures, timers, source port, and
all commands together. -/
namespace Sys2Proof.Machine

section
variable {s t u : State}

/-! ## The picture's cells -/

theorem State.moves_frameAtMember (c : CellBytes) : s.Moves (s.frameAtMember c) :=
  (State.moves_takeFrameMark (cellFrame c)).tail (.aside (State.aside_forward _ c))

theorem State.moves_resultAtMember (c : CellBytes) : s.Moves (s.resultAtMember c) :=
  .aside ((s.aside_tapResult _).trans (State.aside_forward _ c))

/-! ## Departures -/

/-- What stands where the arbiter makes a choice (R110). -/
def State.Offers (s : State) : Departure → Prop
  | .silent => True
  | .forward c rest => s.tx.forward = c :: rest
  | .result e rest => s.origin.outstanding = e :: rest
  | .frame n => s.origin.offeredFrame = some n
  | .merge y => s.origin.offeredMerge = some y
  | .launch c rest => s.tx.launch = c :: rest
  | .probe => True

theorem State.forwardHead_offers {d : Departure} (h : s.forwardHead = some d) : s.Offers d := by
  unfold State.forwardHead at h
  split at h
  · cases h
  · next hf => cases h; exact hf

theorem State.launchHead_offers {d : Departure} (h : s.launchHead = some d) : s.Offers d := by
  unfold State.launchHead at h
  split at h
  · cases h
  · next hl => cases h; exact hl

theorem State.outstandingHead_offers {d : Departure} (h : s.outstandingHead = some d) : s.Offers d := by
  unfold State.outstandingHead OriginEngine.sendable at h
  cases ho : s.origin.outstanding with
  | nil => simp [ho] at h
  | cons e rest =>
    simp only [ho] at h
    split at h
    · cases h
    · next he =>
      split at he
      · cases he
      · cases he; cases h; exact ho

theorem State.orElse_offers {first : Option Departure} {rest : Departure} (hf : ∀ d, first = some d → s.Offers d)
    (hr : s.Offers rest) : s.Offers (orElse first rest) := by
  cases first with
  | none => exact hr
  | some d => exact hf d rfl

theorem State.map_offers {α : Type} {offered : Option α} {choice : α → Departure}
    (h : ∀ x, offered = some x → s.Offers (choice x)) : ∀ d, offered.map choice = some d → s.Offers d := by
  intro d hd
  obtain ⟨x, hx, rfl⟩ := Option.map_eq_some_iff.1 hd
  exact h x hx

/-- The arbiter chooses among what stands (R110). -/
theorem State.choose_offers (s : State) : s.Offers s.choose := by
  have forward : ∀ d, s.forwardHead = some d → s.Offers d := fun _ => State.forwardHead_offers
  have launched : s.Offers (orElse s.launchHead .probe) := State.orElse_offers (fun _ => State.launchHead_offers) trivial
  unfold State.choose
  split
  · trivial
  · trivial
  · exact State.orElse_offers forward launched
  · split
    · exact State.orElse_offers forward
        (State.orElse_offers (fun _ => State.outstandingHead_offers)
          (State.orElse_offers (State.map_offers fun _ => id) (State.orElse_offers (State.map_offers fun _ => id) launched)))
    · exact State.orElse_offers forward launched
    · exact State.orElse_offers forward launched
  · exact launched
  · split
    · exact State.orElse_offers forward trivial
    · trivial

theorem State.moves_sendResult {e : OutEntry} {rest : List OutEntry} (h : s.origin.outstanding = e :: rest) :
    s.Moves (s.sendResult e rest) :=
  .head (.resultLeaves e rest h) (.single (.aside ((State.aside_tapResult _ _).trans (State.aside_send _ _))))

theorem State.moves_launchFrame {n : Half} (h : s.origin.offeredFrame = some n) : s.Moves (s.launchFrame n) :=
  .head (.frameLeaves n h) ((State.moves_takeFrameMark n).tail (.aside (State.aside_send _ _)))

/-- The source port's work at a merge launch (R72). -/
theorem State.aside_launchSource (y : Nat) :
    s.Aside ((if s.origin.nextSpan = 0 then s.lineBegun y else s).spanMerged s.origin.nextSpan y) :=
  (State.Aside.ite (s.aside_lineBegun y) (.refl s)).trans (State.aside_spanMerged _ _ _)

theorem State.moves_launchMerge {y : Nat} (h : s.origin.offeredMerge = some y) : s.Moves (s.launchMerge y) := by
  let worked := (if s.origin.nextSpan = 0 then s.lineBegun y else s).spanMerged s.origin.nextSpan y
  have works : s.Aside worked := s.aside_launchSource y
  have offered : worked.origin.offeredMerge = some y := by
    rw [show worked.origin = s.origin from congrArg Control.origin works.control]
    exact h
  have launched : s.Moves (worked.setOrigin (worked.origin.launched worked.format.spans y worked.now)) :=
    .tail (.single (.aside works)) (.spanLeaves y worked.now offered)
  exact launched.tail (.aside (State.aside_send _ _))

theorem State.moves_departs {d : Departure} (h : s.Offers d) : s.Moves (s.depart d) := by
  cases d with
  | silent => exact .aside (.of_same rfl rfl rfl rfl)
  | forward c rest =>
    refine .aside (.trans (t := s.setTx { s.tx with forward := rest }) ⟨rfl, fun bound => ?_, id⟩ (State.aside_send _ _))
    rw [show s.tx.forward = c :: rest from h] at bound
    exact Nat.le_of_succ_le bound
  | result e rest => exact State.moves_sendResult h
  | frame n => exact State.moves_launchFrame h
  | merge y => exact State.moves_launchMerge h
  | launch c rest =>
    refine .tail (b := (s.setTx { s.tx with launch := rest }).launchDeparts c) ?_ (.aside (State.aside_send _ _))
    cases c with
    | roster r => exact .single (.launchLeaves _ rest _ h (.roster r _))
    | commit m => exact .single (.launchLeaves _ rest _ h (.commit m _))
    | halt cell => exact .single (.launchLeaves _ rest _ h (.halt cell))
    | bulletin b =>
      exact .tail (.single (.launchLeaves _ rest _ h (.bulletin b))) (.aside (State.aside_bulletinDeparts _ b))
  | probe => exact .single .probeLeaves

theorem State.moves_opportunity : s.Moves s.opportunity :=
  .head (.aside (t := s.setNow (s.now + 1)) (.of_same rfl rfl rfl rfl)) (State.moves_departs (State.choose_offers _))

/-! ## Timers -/

theorem State.moves_lineSlotExpires : s.Moves s.lineSlotExpires := by
  unfold State.lineSlotExpires
  split
  · next t k timer slot =>
    exact .head (.aside (s.aside_reach (t.slotDue s.format k))) (.single (.slotExpires t s.format.height k timer slot))
  · exact .refl

theorem loseOldest_ne_nil {es : List OutEntry} {r : List OutEntry × Nat} (h : loseOldest es = some r) : es ≠ [] := by
  rintro rfl
  cases h

theorem State.moves_lapLimitExpires : s.Moves s.lapLimitExpires := by
  unfold State.lapLimitExpires
  split
  · exact .refl
  · next entries launch lost =>
    have reached : s.Moves (s.reach (launch + lapLimitPeriods)) := .aside (s.aside_reach _)
    have may : (s.reach (launch + lapLimitPeriods)).MayHalt :=
      .inr (.inr (.inr (.inr (loseOldest_ne_nil lost))))
    refine .ite (fun _ => reached.tail (.halts s.rx s.checker (s.origin.lapExpired entries) _ _ may State.LinkLaw.sound))
      fun third => reached.tail (.lapExpires entries launch lost fun two => third ?_)
    exact congrArg Nat.succ two

theorem State.moves_rosterTimerExpires : s.Moves s.rosterTimerExpires := by
  unfold State.rosterTimerExpires
  split
  · exact .refl
  · next d timer =>
    have runs : (s.reach d).ring.rosterTimer.isSome = true := Option.isSome_iff_exists.2 ⟨d, timer⟩
    exact .head (.aside (s.aside_reach d)) (.single (.relaunches runs))

theorem State.moves_commitLimitExpires : s.Moves s.commitLimitExpires := by
  unfold State.commitLimitExpires
  split
  · exact .refl
  · next d _ =>
    have stopped : s.Moves ((s.reach d).setRing { s.ring with commitLimit := none }) :=
      .head (.aside (s.aside_reach d)) (.single .commitLimitStops)
    exact .ite
      (fun ⟨roll, _⟩ => stopped.trans
        (State.moves_raiseHalt (s := (s.reach d).setRing { s.ring with commitLimit := none }) (.inl roll) _ _))
      fun _ => stopped

theorem State.moves_noOriginExpires : s.Moves s.noOriginExpires := by
  unfold State.noOriginExpires
  split
  · exact .refl
  · next d timer =>
    have runs : (s.reach d).ring.noOriginTimer.isSome = true := Option.isSome_iff_exists.2 ⟨d, timer⟩
    exact .head (.aside (s.aside_reach d)) (.single (.hearsRoster true none (.inr runs)))

theorem State.moves_firstFrameExpires : s.Moves s.firstFrameExpires := by
  unfold State.firstFrameExpires
  split
  · exact .refl
  · next d timer =>
    have runs : (s.reach d).ring.firstFrame.isSome = true := Option.isSome_iff_exists.2 ⟨d, timer⟩
    exact .head (.aside (s.aside_reach d)) (State.moves_raiseHalt (.inr (.inr (.inl runs))) _ _)

theorem State.moves_frameMissingExpires : s.Moves s.frameMissingExpires := by
  unfold State.frameMissingExpires
  split
  · exact .refl
  · next d timer =>
    have runs : (s.reach d).ring.frameMissing.isSome = true := Option.isSome_iff_exists.2 ⟨d, timer⟩
    exact .head (.aside (s.aside_reach d)) (State.moves_raiseHalt (.inr (.inr (.inr (.inl runs)))) _ _)

theorem State.moves_holdOffExpires : s.Moves s.holdOffExpires := by
  unfold State.holdOffExpires
  split
  · exact .refl
  · next d timer =>
    have runs : (s.reach d).ring.holdOff.isSome = true := Option.isSome_iff_exists.2 ⟨d, timer⟩
    have reached : s.Moves (s.reach d) := .aside (s.aside_reach d)
    dsimp only
    split
    · next c _ => exact reached.tail (.demoted c.relayCause runs (by cases c <;> nofun))
    · exact ((reached.tail (.holdOffEnds runs)).tail (.aside (State.aside_flushForward _))).trans State.moves_tryRoll

theorem State.moves_beaconExpires : s.Moves s.beaconExpires := by
  unfold State.beaconExpires
  split
  · exact .refl
  · next d timer =>
    have runs : (s.reach d).ring.beacon.isSome = true := Option.isSome_iff_exists.2 ⟨d, timer⟩
    exact .head (.aside (s.aside_reach d)) (.head (.beacons (d + beaconPeriods) runs) (.single (.aside (State.aside_setTap _ _))))

/-! ## The source port -/

/-- The fields of a LAYER_SETUP record that breaks no bound lie in their ranges (R19, R24). -/
theorem readSetup_inRange {r : List Byte} {i : Fin 4} {v : Setup} (h : readSetup r = some (i, v)) : v.InRange := by
  unfold readSetup at h
  split_ifs at h with whole layer
  split at h
  · dsimp only at h
    split_ifs at h with ranges
    obtain ⟨base, x0, y0, width, height, right, bottom, cover, target, step⟩ := ranges
    cases h
    exact ⟨base, x0, y0, Nat.one_le_iff_ne_zero.2 width, Nat.one_le_iff_ne_zero.2 height, right, bottom, cover, target,
      step⟩
  · cases h

theorem State.LayerLaw.accept (h : s.LayerLaw) (i : Fin 4) {v : Setup} (range : v.InRange) :
    (s.setLayers (s.layers.accept i v)).LayerLaw := by
  intro j
  obtain ⟨shadow, active⟩ := h j
  refine ⟨?_, active⟩
  rw [State.setLayers_layers, Layers.accept]
  by_cases hj : j = i
  · rw [hj, Four.get_set_same]
    exact range
  · rw [Four.get_set_other _ _ _ _ hj]
    exact shadow

theorem State.moves_setupTaken (r : List Byte) : s.Moves (s.setupTaken r) := by
  refine .ite (fun _ => .aside (s.aside_refuse _ _)) fun _ => ?_
  split
  · exact .aside (s.aside_refuse _ _)
  · next i v given =>
    exact .head (.layers _ fun law => law.accept i (readSetup_inRange given)) (.single (.aside (State.aside_refuse _ _ _)))

/-! ## All commands -/

/-- Every command but RESET and the frame timer's expiry is a chain of moves. -/
theorem exec_moves : ∀ c : Instr, c ≠ .reset → c ≠ .frameTimerExpiry → exec c s = .next t → s.Moves t
  | .reset, h, _, _ => absurd rfl h
  | .resetRelease strap, _, _, rfl => State.moves_releaseReset strap
  | .configAttemptFails phase, _, _, rfl => State.moves_live fun running => State.moves_attemptFails running phase
  | .retryWaitExpiry, _, _, rfl => State.moves_live fun _ => State.moves_retryExpires
  | .configAttemptSucceeds image, _, _, rfl => State.moves_live fun running => State.moves_attemptSucceeds running image
  | .activityAppears, _, _, rfl => State.moves_live fun _ => State.moves_activity
  | .aligningSilence, _, _, rfl => State.moves_live fun _ => State.moves_aligningSilent
  | .lockGained, _, _, rfl => State.moves_live fun _ => State.moves_gainLock
  | .silenceTimerExpiry active, _, _, rfl => State.moves_live fun _ => State.moves_loseLock active
  | .cellError kind, _, _, rfl => State.moves_live fun _ => State.moves_cellFails kind
  | .probe cell, _, _, rfl => State.moves_arrive fun _ _ _ => State.moves_probeArrives cell
  | .roster cell, _, _, rfl => State.moves_arrive fun _ _ _ => State.moves_rosterArrives cell
  | .commit cell, _, _, rfl => State.moves_arrive fun _ _ _ => State.moves_commitArrives cell
  | .haltCell cell, _, _, rfl => State.moves_arrive fun _ _ _ => State.moves_haltArrives cell
  | .frame cell, _, _, rfl => State.moves_arrive fun _ _ _ =>
      State.moves_filterPicture cell (fun _ => State.moves_frameAtMember cell) fun _ => .refl
  | .merge cell, _, _, rfl => State.moves_arrive fun u _ _ =>
      State.moves_filterPicture cell (fun _ => .aside (u.aside_mergeAtMember cell)) fun _ => .single (.returns _ _)
  | .result cell, _, _, rfl => State.moves_arrive fun _ _ _ =>
      State.moves_filterPicture cell (fun _ => State.moves_resultAtMember cell) fun _ => .refl
  | .bulletin cell, _, _, rfl => State.moves_arrive fun u _ _ =>
      State.moves_filterPicture cell (fun _ => .aside (u.aside_bulletinArrives cell)) fun _ =>
        .aside (u.aside_bulletinArrives cell)
  | .unknownKindCell cell, _, _, rfl => State.moves_arrive fun u _ _ => .aside (u.aside_unknownArrives cell)
  | .departureOpportunity, _, _, rfl => State.moves_live fun _ => State.moves_opportunity
  | .frameTimerExpiry, _, h, _ => absurd rfl h
  | .lineSlotTimerExpiry, _, _, rfl => State.moves_live fun _ => State.moves_lineSlotExpires
  | .lapLimitExpiry, _, _, rfl => State.moves_live fun _ => State.moves_lapLimitExpires
  | .rosterTimerExpiry, _, _, rfl => State.moves_live fun _ => State.moves_rosterTimerExpires
  | .commitLimitExpiry, _, _, rfl => State.moves_live fun _ => State.moves_commitLimitExpires
  | .noOriginTimerExpiry, _, _, rfl => State.moves_live fun _ => State.moves_noOriginExpires
  | .firstFrameLimitExpiry, _, _, rfl => State.moves_live fun _ => State.moves_firstFrameExpires
  | .frameMissingTimerExpiry, _, _, rfl => State.moves_live fun _ => State.moves_frameMissingExpires
  | .holdOffTimerExpiry, _, _, rfl => State.moves_live fun _ => State.moves_holdOffExpires
  | .beaconTimerExpiry, _, _, rfl => State.moves_live fun _ => State.moves_beaconExpires
  | .layerSetup words, _, _, rfl => State.moves_live fun _ => State.moves_setupTaken (recordBytes words)
  | .line words, _, _, rfl => State.moves_live fun _ => .aside (s.aside_lineTaken (recordBytes words))
  | .unknownRecord _, _, _, rfl => State.moves_live fun _ => .aside s.aside_unknownTaken
  | .cueDeparts, _, _, rfl => State.moves_live fun _ => .aside s.aside_cueLeaves
  | .tapRecordDeparts ready, _, _, rfl => State.moves_live fun _ => .aside (s.aside_tapLeaves ready)

end

end Sys2Proof.Machine
end

section
/-! SUPPORT. What every step keeps: the serial and the queue of commands, and the layer law. A property that RESET, the
frame timer's expiry and every move keep, every command keeps. -/
namespace Sys2Proof.Machine

section
variable {s t : State}

/-! ## From moves to steps -/

theorem State.Moves.keeps {P : State → Prop} (h : s.Moves t) (moves : ∀ u v : State, u.Move v → P u → P v) (hs : P s) :
    P t := by
  induction h with
  | refl => exact hs
  | tail _ move ih => exact moves _ _ move ih

theorem exec_keeps {P : State → Prop} (reset : ∀ u : State, P u → P u.resetAll)
    (moves : ∀ u v : State, u.Move v → P u → P v) (frame : ∀ u : State, P u → P u.frameTimerExpires) {c : Instr}
    (h : exec c s = .next t) (hs : P s) : P t := by
  by_cases hr : c = .reset
  · subst hr; cases h
    exact reset s hs
  · by_cases hf : c = .frameTimerExpiry
    · subst hf; cases h
      unfold State.live
      split
      · exact hs
      · exact frame s hs
    · exact (exec_moves c hr hf h).keeps moves hs

theorem step_keeps {P : State → Prop} (pending : ∀ (u : State) q, P u → P (u.setPending q))
    (reset : ∀ u : State, P u → P u.resetAll) (moves : ∀ u v : State, u.Move v → P u → P v)
    (frame : ∀ u : State, P u → P u.frameTimerExpires) (h : step s = .next t) (hs : P s) : P t := by
  unfold step at h
  split at h
  · cases h; exact hs
  · next c rest _ => exact exec_keeps reset moves frame h (pending s rest hs)

/-- A frame timer expiry changes the time and the origin engine alone (R77, R78). -/
theorem State.frameTimerExpires_cases (s : State) :
    s.frameTimerExpires = s ∨ ∃ timer, s.origin.frameTimer = some timer ∧
      s.frameTimerExpires = (s.reach (timer.due s.format)).setOrigin (s.origin.frameExpired timer) := by
  unfold State.frameTimerExpires
  split
  · exact .inl rfl
  · next timer runs => exact .inr ⟨timer, runs, rfl⟩

/-! ## What is left unchanged by the moves with a name -/

theorem State.enterRoll_kept (s : State) :
    s.enterRoll.serial = s.serial ∧ s.enterRoll.pending = s.pending ∧ s.enterRoll.layers = s.layers ∧
      s.enterRoll.origin = s.origin := by
  unfold State.enterRoll
  dsimp only
  split <;> exact ⟨rfl, rfl, rfl, rfl⟩

theorem State.elect_kept (s : State) (r : RosterCell) :
    (s.elect r).serial = s.serial ∧ (s.elect r).pending = s.pending ∧ (s.elect r).layers = s.layers ∧
      (s.elect r).origin = s.origin := by
  unfold State.elect
  split <;> exact ⟨rfl, rfl, rfl, rfl⟩

theorem State.enterRun_kept (s : State) (role : Role) (k : Committed) (limit : Timer) :
    (s.enterRun role k limit).serial = s.serial ∧ (s.enterRun role k limit).pending = s.pending ∧
      (s.enterRun role k limit).layers = s.layers := by
  rw [s.enterRun_enters role k limit]
  exact ⟨rfl, rfl, rfl⟩

/-! ## Serial, queue of commands and layers -/

/-- No move changes the serial or the queue of commands, and each keeps the ranges of both layer tables. -/
theorem State.Move.frame (h : s.Move t) :
    t.serial = s.serial ∧ t.pending = s.pending ∧ (s.LayerLaw → t.LayerLaw) := by
  have of_layers : t.serial = s.serial → t.pending = s.pending → t.layers = s.layers →
      t.serial = s.serial ∧ t.pending = s.pending ∧ (s.LayerLaw → t.LayerLaw) := fun serial pending layers =>
    ⟨serial, pending, fun law => by unfold State.LayerLaw; rw [layers]; exact law⟩
  cases h
  case aside aside =>
    have kept := aside.control
    exact of_layers (congrArg Control.serial kept) (congrArg Control.pending kept) (congrArg Control.layers kept)
  case layers l ranges => exact ⟨rfl, rfl, ranges⟩
  case entersRoll =>
    obtain ⟨serial, pending, layers, _⟩ := s.enterRoll_kept
    exact of_layers serial pending layers
  case elects r _ =>
    obtain ⟨serial, pending, layers, _⟩ := s.elect_kept r
    exact of_layers serial pending layers
  case entersRun role k limit engine _ _ _ =>
    obtain ⟨serial, pending, layers⟩ := s.enterRun_kept role k limit
    exact of_layers serial pending layers
  case halts r c engine h cell _ _ =>
    obtain ⟨layers, _, _, _, _, serial, pending⟩ :=
      ((((s.setRx r).setChecker c).setOrigin engine).enterHalt_entered h cell).kept
    exact of_layers serial pending layers
  all_goals exact of_layers rfl rfl rfl

theorem exec_completes (c : Instr) (s : State) : ∃ t, exec c s = .next t := by
  cases c <;> exact ⟨_, rfl⟩

/-- Settles O2: no arm of `exec` refuses or faults, and neither RESET nor a move touches the queue or the serial. -/
theorem everyCommandCompletesKeepingQueueAndSerial : Obligations.EveryCommandCompletesKeepingQueueAndSerial := by
  intro c s
  obtain ⟨t, ht⟩ := exec_completes c s
  refine ⟨t, ht, exec_keeps (P := fun u => u.pending = s.pending ∧ u.serial = s.serial) (fun _ => id) ?_ ?_ ht ⟨rfl, rfl⟩⟩
  · rintro u v move ⟨pending, serial⟩
    obtain ⟨sameSerial, samePending, _⟩ := move.frame
    exact ⟨samePending.trans pending, sameSerial.trans serial⟩
  · intro u hu
    obtain same | ⟨timer, _, same⟩ := u.frameTimerExpires_cases <;> rw [same] <;> exact hu

theorem State.layerLaw_resetAll (s : State) : s.resetAll.LayerLaw := by
  have range : Setup.reset.InRange := by unfold Setup.InRange; decide
  intro i
  simp only [State.resetAll, State.reset, Layers.reset, Four.get_all]
  exact ⟨range, range, Nat.zero_le 16⟩

/-- Settles O59: after RESET both tables hold the same fields, an accepted setup is in its ranges (R24), and a FRAME mark
withdraws and fades within them (R30, R35). -/
theorem everyStepKeepsTheLayerLaw : Obligations.EveryStepKeepsTheLayerLaw := by
  intro s t law ht
  refine step_keeps (fun _ _ => id) (fun u _ => u.layerLaw_resetAll) (fun u v move => move.frame.2.2) (fun u hu => ?_) ht law
  obtain same | ⟨timer, _, same⟩ := u.frameTimerExpires_cases <;> rw [same] <;> exact hu

end

end Sys2Proof.Machine
end

section
/-! SUPPORT. The link's law (R118, R122, R127) through every move. -/
namespace Sys2Proof.Machine

section
variable {s t : State}

/-! ## What the law looks at -/

/-- The law looks at the ring state, the lock state and five fields of the checker. -/
theorem State.LinkLaw.of_same (h : s.LinkLaw) (state : t.ring.state = s.ring.state) (lock : t.rx.lock = s.rx.lock)
    (sync : t.checker.sync = s.checker.sync) (previous : t.checker.previous = s.checker.previous)
    (clean : t.checker.clean = s.checker.clean) (bad : t.checker.bad = s.checker.bad)
    (qualified : t.checker.qualified = s.checker.qualified) : t.LinkLaw := by
  unfold State.LinkLaw
  rw [state, lock, sync, previous, clean, bad, qualified]
  exact h

theorem State.LinkLaw.of_checker (h : s.LinkLaw) (state : t.ring.state = s.ring.state) (lock : t.rx.lock = s.rx.lock)
    (checker : t.checker = s.checker) : t.LinkLaw :=
  h.of_same state lock (congrArg _ checker) (congrArg _ checker) (congrArg _ checker) (congrArg _ checker)
    (congrArg _ checker)

/-- Out of ROLL and RUN the law asks nothing of the receiver. -/
theorem State.LinkLaw.of_away (h : s.LinkLaw) (roll : t.ring.state ≠ .roll) (run : t.ring.state ≠ .run)
    (checker : t.checker = s.checker) : t.LinkLaw := by
  unfold State.LinkLaw
  rw [checker]
  exact ⟨fun inRing => (inRing.elim roll run).elim, h.2⟩

theorem State.linkLaw_of_hunts (hc : t.checker.Hunts) (roll : t.ring.state ≠ .roll) (run : t.ring.state ≠ .run) :
    t.LinkLaw := by
  obtain ⟨sync, previous, clean, bad, qualified⟩ := hc
  refine ⟨fun inRing => (inRing.elim roll run).elim, ?_, ?_, ?_, ?_, ?_⟩
  · rw [qualified]; nofun
  · rw [sync]; nofun
  · rw [previous]; nofun
  · rw [clean]; exact Nat.zero_le 64
  · rw [bad]; exact Nat.zero_le 3

/-! ## Moves -/

theorem State.enterRoll_link (s : State) :
    s.enterRoll.ring.state = .roll ∧ s.enterRoll.rx = s.rx ∧ s.enterRoll.checker = s.checker := by
  unfold State.enterRoll
  dsimp only
  split <;> exact ⟨rfl, rfl, rfl⟩

theorem State.elect_link (s : State) (r : RosterCell) :
    (s.elect r).ring.state = s.ring.state ∧ (s.elect r).rx = s.rx ∧ (s.elect r).checker = s.checker := by
  unfold State.elect
  split <;> exact ⟨rfl, rfl, rfl⟩

/-- A halt leaves ROLL and RUN, and clears the clean run and the qualified flag of a checker (R130). -/
theorem State.LinkLaw.halted {r : HaltRecord} {cell : CellBytes} (sound : s.checker.Sound)
    (e : s.HaltEntered r cell t) : t.LinkLaw := by
  have state : t.ring.state = .halt := by rw [e.ring]
  obtain ⟨placed, range, bad⟩ := sound
  unfold State.LinkLaw
  rw [state, e.checker]
  exact ⟨nofun, nofun, placed, range, Nat.zero_le 64, bad⟩

theorem State.Move.keeps_linkLaw (move : s.Move t) (h : s.LinkLaw) : t.LinkLaw := by
  have quiet : t.ring.state = s.ring.state → t.rx.lock = s.rx.lock → t.checker = s.checker → t.LinkLaw := h.of_checker
  have away : t.ring.state ≠ .roll → t.ring.state ≠ .run → t.checker = s.checker → t.LinkLaw := h.of_away
  have linked := h.1
  cases move
  case aside aside =>
    have kept := aside.control
    exact h.of_same (congrArg (fun k => k.ring.state) kept) (congrArg Control.lock kept) (congrArg Control.sync kept)
      (congrArg Control.previous kept) (congrArg Control.clean kept) (congrArg Control.bad kept)
      (congrArg Control.qualified kept)
  case leavesForRelay => exact away nofun nofun rfl
  case leavesForListen => exact away nofun nofun rfl
  case lockMoves r unlocked =>
    exact away (fun roll => unlocked (linked (.inl roll)).1) (fun run => unlocked (linked (.inr run)).1) rfl
  case checks c keeps => exact keeps h
  case linkLost r c roll run hunts => exact State.linkLaw_of_hunts hunts roll run
  case returnsToListen r c _ hunts => exact State.linkLaw_of_hunts hunts nofun nofun
  case entersRoll _ locked qualified =>
    obtain ⟨_, rx, checker⟩ := s.enterRoll_link
    unfold State.LinkLaw
    rw [rx, checker]
    exact ⟨fun _ => ⟨locked, h.2.1 qualified⟩, h.2⟩
  case elects r _ =>
    obtain ⟨state, rx, checker⟩ := s.elect_link r
    exact quiet state (congrArg _ rx) checker
  case entersRun role k limit engine roll _ _ =>
    rw [s.enterRun_enters role k limit]
    exact ⟨fun _ => linked (.inl roll), h.2⟩
  case halts r c engine record cell _ sound =>
    exact State.LinkLaw.halted (sound h) (State.enterHalt_entered _ record cell)
  case launchLeaves c rest ring _ starts => cases starts <;> exact quiet rfl rfl rfl
  case holdOffEnds => exact away nofun nofun rfl
  case demoted => exact away nofun nofun rfl
  all_goals exact quiet rfl rfl rfl

theorem State.linkLaw_resetAll (s : State) : s.resetAll.LinkLaw :=
  State.linkLaw_of_hunts ⟨rfl, rfl, rfl, rfl, rfl⟩ nofun nofun

/-- Settles O55: each move that enters ROLL or RUN finds a LOCKED receiver and a SYNCED checker, and each that takes lock
or sync away leaves ROLL and RUN (R127). -/
theorem everyStepKeepsTheLinkLaw : Obligations.EveryStepKeepsTheLinkLaw := by
  intro s t law ht
  refine step_keeps (fun _ _ => id) (fun u _ => u.linkLaw_resetAll) (fun _ _ move => move.keeps_linkLaw)
    (fun u hu => ?_) ht law
  obtain same | ⟨timer, _, same⟩ := u.frameTimerExpires_cases <;> rw [same] <;> exact hu

end

end Sys2Proof.Machine
end

section
/-! SUPPORT. The ring controller's law (R131, R136, R146, R149 and the phases) through every move. -/
namespace Sys2Proof.Machine

section
variable {s t : State}

/-! ## Outside RUN, and outside ROLL and RUN -/

/-- What the law leaves a station outside RUN: no ring, no role, no watch, an engine at rest. -/
structure State.Idle (s : State) : Prop where
  committed : s.ring.committed = none
  role : s.ring.role = .none
  ringOk : s.pins.ringOk = false
  originPin : s.pins.origin = false
  firstFrame : s.ring.firstFrame = none
  frameMissing : s.ring.frameMissing = none
  engine : s.origin.frameTimer = none ∧ s.origin.lineSlot = none ∧ s.origin.readyFrame = none ∧ s.origin.lines = [] ∧
    s.origin.outstanding = []

/-- What the law leaves a station outside ROLL and RUN of what belongs to forming a ring. -/
structure State.Unformed (s : State) : Prop where
  elected : s.ring.elected = false
  rosterTimer : s.ring.rosterTimer = none
  commitLimit : s.ring.commitLimit = none
  queue : ∀ c ∈ s.tx.launch, c.kind ≠ .roster ∧ c.kind ≠ .commit
  noOriginTimer : s.ring.noOriginTimer = none
  noOrigin : s.ring.noOrigin = false

theorem State.RingLaw.idle (h : s.RingLaw) (run : s.ring.state ≠ .run) : s.Idle := by
  obtain ⟨⟨held, _, role, _⟩, ⟨ringOk, origin, _⟩, ⟨_, first, missing, engine, _⟩⟩ := h
  have none : s.ring.role = .none := role.2 run
  refine ⟨?_, none, ?_, ?_, ?_, ?_, engine (by rw [none]; nofun)⟩
  · exact Option.not_isSome_iff_eq_none.1 fun some => run (held.2 some)
  · exact Bool.eq_false_iff.2 fun on => run (ringOk.1 on)
  · exact Bool.eq_false_iff.2 fun on => by have := origin.1 on; rw [none] at this; cases this
  · exact Option.not_isSome_iff_eq_none.1 fun some => by have := first some; rw [none] at this; cases this
  · exact Option.not_isSome_iff_eq_none.1 fun some => by have := missing some; rw [none] at this; cases this

theorem State.RingLaw.unformed (h : s.RingLaw) (roll : s.ring.state ≠ .roll) (run : s.ring.state ≠ .run) :
    s.Unformed := by
  obtain ⟨_, _, ⟨_, _, _, _, elected, rosters, commits, noOrigins, _⟩⟩ := h
  have noCommit := fun x => (commits x).elim roll run
  refine ⟨?_, ?_, ?_, fun c hc => ⟨fun kind => ?_, fun kind => ?_⟩, ?_, ?_⟩
  · exact Bool.eq_false_iff.2 fun on => roll (elected on)
  · exact Option.not_isSome_iff_eq_none.1 fun some => roll (rosters (.inl some))
  · exact Option.not_isSome_iff_eq_none.1 fun some => noCommit (.inl some)
  · exact roll (rosters (.inr ⟨c, hc, kind⟩))
  · exact noCommit (.inr ⟨c, hc, kind⟩)
  · exact Option.not_isSome_iff_eq_none.1 fun some => roll (noOrigins (.inl some))
  · exact Bool.eq_false_iff.2 fun on => roll (noOrigins (.inr on))

theorem State.Idle.rosterLaw (i : t.Idle) (run : t.ring.state ≠ .run) : t.RosterLaw := by
  refine ⟨⟨fun h => absurd h run, fun h => ?_⟩, fun c hc => ?_, ⟨fun _ => run, fun _ => i.role⟩, ⟨fun h => ?_, fun h => ?_⟩⟩
  · rw [i.committed] at h; cases h
  · rw [i.committed] at hc; cases hc
  · rw [i.role] at h; cases h
  · rw [State.position, i.committed] at h; cases h

/-- FAULT as the relay cause gives, and a cause exactly in RELAY (R136). -/
def State.FaultShown (s : State) : Prop :=
  s.pins.fault = s.ring.relayCause.fault ∧ (s.ring.relayCause = .none ↔ s.ring.state ≠ .relay)

theorem State.Idle.pinLaw (i : t.Idle) (run : t.ring.state ≠ .run) (fault : t.FaultShown) : t.PinLaw := by
  refine ⟨⟨fun h => ?_, fun h => absurd h run⟩, ⟨fun h => ?_, fun h => ?_⟩, fault⟩
  · rw [i.ringOk] at h; cases h
  · rw [i.originPin] at h; cases h
  · rw [i.role] at h; cases h

/-- The law of a station in DARK, LISTEN, HALT or RELAY. -/
theorem State.Idle.ringLaw (i : t.Idle) (u : t.Unformed) (run : t.ring.state ≠ .run)
    (fault : t.FaultShown) (holdOff : t.ring.holdOff.isSome = true → t.ring.state = .halt)
    (beacon : t.ring.beacon.isSome = true ↔ t.ring.state ≠ .dark)
    (held : t.inReset = true → t.ring.state = .dark ∧ t.loader.state = .idle)
    (reading : t.loader.state = .reading → t.ring.state = .dark) : t.RingLaw := by
  refine ⟨i.rosterLaw run, i.pinLaw run fault, holdOff, ?_, ?_, fun _ => i.engine, ?_, ?_, ?_, ?_,
    ⟨fun h => ⟨beacon.1 h, run⟩, fun h => beacon.2 h.1⟩, held, reading⟩
  · rw [i.firstFrame]; nofun
  · rw [i.frameMissing]; nofun
  · rw [u.elected]; nofun
  · rw [u.rosterTimer]
    rintro (⟨⟨⟩⟩ | ⟨c, hc, kind⟩)
    exact absurd kind (u.queue c hc).1
  · rw [u.commitLimit]
    rintro (⟨⟨⟩⟩ | ⟨c, hc, kind⟩)
    exact absurd kind (u.queue c hc).2
  · rw [u.noOriginTimer, u.noOrigin]
    rintro (⟨⟨⟩⟩ | ⟨⟨⟩⟩)

/-! ## The local launch queue -/

theorem placeIn_kind {x : LaunchCell} {q : List LaunchCell} {k : LaunchKind} (h : ∃ c ∈ placeIn x q, c.kind = k) :
    x.kind = k ∨ ∃ c ∈ q, c.kind = k := by
  obtain ⟨c, hc, hk⟩ := h
  unfold placeIn at hc
  split at hc
  · obtain ⟨d, hd, rfl⟩ := List.mem_map.1 hc
    split at hk
    · exact .inl hk
    · exact .inr ⟨d, hd, hk⟩
  · obtain hq | hx := List.mem_append.1 hc
    · exact .inr ⟨c, hq, hk⟩
    · rw [List.mem_singleton.1 hx] at hk
      exact .inl hk

/-! ## Entry to RELAY -/

/-- Entry to RELAY, said once (R136). -/
theorem State.enterRelay_eq (s : State) (cause : RelayCause) :
    s.enterRelay cause =
      { s with
        ring := { s.ring with state := .relay, relayCause := cause }, pins := { s.pins with fault := cause.fault }
        tx := { s.tx with forward := [], launch := [] } } := by
  simp only [State.enterRelay, State.setRing, State.setPins, State.setTx]

/-- The departure from DARK for RELAY, said once (R136, R170, R181). -/
theorem State.darkToRelay_eq (s : State) (cause : RelayCause) :
    s.darkToRelay cause =
      { s with
        ring := { s.ring with state := .relay, relayCause := cause, beacon := some (s.now + 20000) }
        pins := { s.pins with fault := cause.fault }
        tx := { s.tx with forward := [], launch := [] } } := by
  rw [State.darkToRelay, State.enterRelay_eq]
  rfl

/-! ## Moves that keep the law -/

/-- The law looks at seven blocks. -/
theorem State.RingLaw.of_control (h : s.RingLaw) (kept : t.control = s.control) : t.RingLaw := by
  have inReset : t.inReset = s.inReset := congrArg Control.inReset kept
  have serial : t.serial = s.serial := congrArg Control.serial kept
  have loader : t.loader = s.loader := congrArg Control.loader kept
  have ring : t.ring = s.ring := congrArg Control.ring kept
  have origin : t.origin = s.origin := congrArg Control.origin kept
  have launch : t.tx.launch = s.tx.launch := congrArg Control.launch kept
  have pins : t.pins = s.pins := congrArg Control.pins kept
  unfold State.RingLaw State.RosterLaw State.PinLaw State.PhaseLaw State.position at h ⊢
  rw [inReset, serial, loader, ring, origin, launch, pins]
  exact h

theorem State.RingLaw.dark_of_start (h : s.RingLaw) {l : Loader}
    (start : s.inReset = true ∧ l = s.loader ∨
      s.loader.state = .reading ∧ l.state ≠ .reading ∧ l.retry = s.loader.retry) :
    s.ring.state = .dark ∧ l.state ≠ .reading := by
  obtain ⟨_, _, ⟨_, _, _, _, _, _, _, _, _, held, reading⟩⟩ := h
  obtain ⟨inReset, rfl⟩ | ⟨reads, done, _⟩ := start
  · obtain ⟨dark, idle⟩ := held inReset
    exact ⟨dark, by rw [idle]; nofun⟩
  · exact ⟨reading reads, done⟩

theorem State.RingLaw.darkToRelay (h : s.RingLaw) {l : Loader} {cause : RelayCause}
    (start : s.inReset = true ∧ l = s.loader ∨
      s.loader.state = .reading ∧ l.state ≠ .reading ∧ l.retry = s.loader.retry) (named : cause ≠ .none) :
    (((s.setInReset false).setLoader l).darkToRelay cause).RingLaw := by
  obtain ⟨dark, done⟩ := h.dark_of_start start
  have idle := h.idle (by rw [dark]; nofun)
  have unformed := h.unformed (by rw [dark]; nofun) (by rw [dark]; nofun)
  obtain ⟨_, _, ⟨holdOff, _⟩⟩ := h
  rw [State.darkToRelay_eq]
  refine State.Idle.ringLaw ⟨idle.1, idle.2, idle.3, idle.4, idle.5, idle.6, idle.7⟩
    ⟨unformed.1, unformed.2, unformed.3, List.forall_mem_nil _, unformed.5, unformed.6⟩ nofun
    ⟨rfl, ⟨fun none => absurd none named, fun away => absurd rfl away⟩⟩ (fun runs => ?_) ⟨nofun, fun _ => rfl⟩ nofun
    fun reads => absurd reads done
  have := holdOff runs
  rw [dark] at this
  cases this

theorem State.RingLaw.darkToListen (h : s.RingLaw) {l : Loader} (c : ConfigCopy) (reads : s.loader.state = .reading)
    (done : l.state ≠ .reading) :
    ((s.setLoader l).setRing { s.ring with state := .listen, config := some c }).startBeacon.RingLaw := by
  obtain ⟨_, ⟨_, _, fault, cause⟩, ⟨holdOff, _, _, _, _, _, _, _, _, held, reading⟩⟩ := id h
  have dark := reading reads
  have idle := h.idle (by rw [dark]; nofun)
  have unformed := h.unformed (by rw [dark]; nofun) (by rw [dark]; nofun)
  refine State.Idle.ringLaw ⟨idle.1, idle.2, idle.3, idle.4, idle.5, idle.6, idle.7⟩
    ⟨unformed.1, unformed.2, unformed.3, unformed.4, unformed.5, unformed.6⟩ nofun
    ⟨fault, ⟨fun _ => nofun, fun _ => cause.2 (by rw [dark]; nofun)⟩⟩ (fun runs => ?_) ⟨nofun, fun _ => rfl⟩
    (fun inReset => ?_) fun reads => absurd reads done
  · have := holdOff runs
    rw [dark] at this
    cases this
  · have := (held inReset).2
    rw [reads] at this
    cases this

theorem State.RingLaw.returnToListen (h : s.RingLaw) (roll : s.ring.state = .roll) : s.returnToListen.RingLaw := by
  obtain ⟨_, ⟨_, _, fault, cause⟩, ⟨holdOff, _, _, _, _, _, _, _, beacon, held, reading⟩⟩ := id h
  have idle := h.idle (by rw [roll]; nofun)
  rw [roll] at cause holdOff beacon held reading
  refine State.Idle.ringLaw ⟨idle.1, idle.2, idle.3, idle.4, idle.5, idle.6, idle.7⟩ ⟨rfl, rfl, rfl, List.forall_mem_nil _, rfl, rfl⟩ nofun
    ⟨fault, ⟨fun _ => nofun, fun _ => cause.2 nofun⟩⟩ (fun runs => absurd (holdOff runs) nofun)
    ⟨nofun, fun _ => beacon.2 ⟨nofun, nofun⟩⟩ (fun inReset => absurd (held inReset).1 nofun)
    fun reads => absurd (reading reads) nofun

/-- Where a halt may be entered, a safe station is in ROLL or in RUN. -/
theorem State.RingLaw.halts_in (h : s.RingLaw) (may : s.MayHalt) : s.ring.state = .roll ∨ s.ring.state = .run := by
  by_cases run : s.ring.state = .run
  · exact .inr run
  · have idle := h.idle run
    obtain roll | run' | first | missing | waits := may
    · exact .inl roll
    · exact .inr run'
    · rw [idle.firstFrame] at first; cases first
    · rw [idle.frameMissing] at missing; cases missing
    · exact absurd idle.engine.2.2.2.2 waits

theorem State.RingLaw.halted {r : HaltRecord} {cell : CellBytes} {u : State} (h : s.RingLaw) (may : s.MayHalt)
    (ring : u.ring = s.ring) (pins : u.pins = s.pins) (loader : u.loader = s.loader) (inReset : u.inReset = s.inReset)
    (e : u.HaltEntered r cell t) : t.RingLaw := by
  have inRing := h.halts_in may
  obtain ⟨_, ⟨_, _, fault, cause⟩, ⟨_, _, _, _, _, _, _, _, beacon, held, reading⟩⟩ := h
  obtain ⟨_, sameLoader, _, _, sameReset, _⟩ := e.kept
  have away : s.ring.state ≠ .relay ∧ s.ring.state ≠ .dark := by obtain h | h := inRing <;> rw [h] <;> exact ⟨nofun, nofun⟩
  have idle : t.Idle := by constructor <;> simp [e.ring, e.pins, e.origin]
  have unformed : t.Unformed := by constructor <;> simp [e.ring, e.queues, LaunchCell.kind]
  have state : t.ring.state = .halt := by rw [e.ring]
  refine idle.ringLaw unformed (by rw [state]; nofun) ?_ (fun _ => state) ?_ ?_ ?_
  · unfold State.FaultShown
    rw [state, e.ring, e.pins, ring, pins]
    exact ⟨fault, ⟨fun _ => nofun, fun _ => cause.2 away.1⟩⟩
  · rw [state, e.ring, ring]
    refine ⟨fun _ => nofun, fun _ => ?_⟩
    split
    · rfl
    · next run => exact beacon.2 ⟨away.2, run⟩
  · rw [sameReset, inReset]
    exact fun on => absurd (held on).1 away.2
  · rw [sameLoader, loader]
    exact fun reads => absurd (reading reads) away.2

theorem State.RingLaw.holdOff_halt (h : s.RingLaw) (runs : s.ring.holdOff.isSome = true) : s.ring.state = .halt := by
  obtain ⟨_, _, ⟨holdOff, _⟩⟩ := h
  exact holdOff runs

theorem State.RingLaw.holdOffEnds (h : s.RingLaw) (runs : s.ring.holdOff.isSome = true) :
    (s.setRing { s.ring with holdOff := none, state := .listen }).RingLaw := by
  have halt := h.holdOff_halt runs
  have idle := h.idle (by rw [halt]; nofun)
  have unformed := h.unformed (by rw [halt]; nofun) (by rw [halt]; nofun)
  obtain ⟨_, ⟨_, _, fault, cause⟩, ⟨_, _, _, _, _, _, _, _, beacon, held, reading⟩⟩ := h
  rw [halt] at cause beacon held reading
  exact State.Idle.ringLaw ⟨idle.1, idle.2, idle.3, idle.4, idle.5, idle.6, idle.7⟩
    ⟨unformed.1, unformed.2, unformed.3, unformed.4, unformed.5, unformed.6⟩ nofun
    ⟨fault, ⟨fun _ => nofun, fun _ => cause.2 nofun⟩⟩ nofun ⟨fun _ => nofun, fun _ => beacon.2 ⟨nofun, nofun⟩⟩
    (fun inReset => absurd (held inReset).1 nofun) fun reads => absurd (reading reads) nofun

theorem State.RingLaw.demoted (h : s.RingLaw) (runs : s.ring.holdOff.isSome = true) {cause : RelayCause}
    (named : cause ≠ .none) : ((s.setRing { s.ring with holdOff := none }).enterRelay cause).RingLaw := by
  have halt := h.holdOff_halt runs
  have idle := h.idle (by rw [halt]; nofun)
  have unformed := h.unformed (by rw [halt]; nofun) (by rw [halt]; nofun)
  obtain ⟨_, _, ⟨_, _, _, _, _, _, _, _, beacon, held, reading⟩⟩ := h
  rw [halt] at beacon held reading
  rw [State.enterRelay_eq]
  exact State.Idle.ringLaw ⟨idle.1, idle.2, idle.3, idle.4, idle.5, idle.6, idle.7⟩
    ⟨unformed.1, unformed.2, unformed.3, List.forall_mem_nil _, unformed.5, unformed.6⟩ nofun
    ⟨rfl, ⟨fun none => absurd none named, fun away => absurd rfl away⟩⟩ nofun
    ⟨fun _ => nofun, fun _ => beacon.2 ⟨nofun, nofun⟩⟩ (fun inReset => absurd (held inReset).1 nofun)
    fun reads => absurd (reading reads) nofun

/-- Entry to ROLL, whatever of R134 the station launches or starts. -/
theorem State.Idle.ringLaw_of_roll (i : t.Idle) (roll : t.ring.state = .roll) (fault : t.FaultShown)
    (holdOff : t.ring.holdOff = none) (beacon : t.ring.beacon.isSome = true) (inReset : t.inReset = false)
    (loader : t.loader.state ≠ .reading) : t.RingLaw := by
  have run : t.ring.state ≠ .run := by rw [roll]; nofun
  refine ⟨i.rosterLaw run, i.pinLaw run fault, ?_, ?_, ?_, fun _ => i.engine, fun _ => roll, fun _ => roll,
    fun _ => .inl roll, fun _ => roll, ⟨fun _ => ⟨by rw [roll]; nofun, run⟩, fun _ => beacon⟩, ?_,
    fun reads => absurd reads loader⟩
  · rw [holdOff]; nofun
  · rw [i.firstFrame]; nofun
  · rw [i.frameMissing]; nofun
  · rw [inReset]; nofun

theorem State.RingLaw.enterRoll (h : s.RingLaw) (listen : s.ring.state = .listen) : s.enterRoll.RingLaw := by
  have idle := h.idle (by rw [listen]; nofun)
  obtain ⟨_, ⟨_, _, fault, cause⟩, ⟨holdOff, _, _, _, _, _, _, _, beacon, held, reading⟩⟩ := h
  rw [listen] at cause holdOff beacon held reading
  have none : s.ring.holdOff = none := Option.not_isSome_iff_eq_none.1 fun some => absurd (holdOff some) nofun
  have released : s.inReset = false := Bool.eq_false_iff.2 fun on => absurd (held on).1 nofun
  have done : s.loader.state ≠ .reading := fun reads => absurd (reading reads) nofun
  have shown : s.pins.fault = s.ring.relayCause.fault ∧ (s.ring.relayCause = .none ↔ RingState.roll ≠ .relay) :=
    ⟨fault, ⟨fun _ => nofun, fun _ => cause.2 nofun⟩⟩
  have runs := beacon.2 ⟨nofun, nofun⟩
  unfold State.enterRoll
  dsimp only
  split
  · exact State.Idle.ringLaw_of_roll ⟨idle.1, idle.2, idle.3, idle.4, idle.5, idle.6, idle.7⟩ rfl shown none runs released
      done
  · exact State.Idle.ringLaw_of_roll ⟨idle.1, idle.2, idle.3, idle.4, idle.5, idle.6, idle.7⟩ rfl shown none runs released
      done

/-- Entry to RUN in a role that the own position gives (R144 to R146). -/
theorem State.RingLaw.enterRun (h : s.RingLaw) (roll : s.ring.state = .roll) {role : Role} {k : Committed}
    {limit : Timer} {engine : OriginEngine} (may : s.MayRun role k engine) (limited : role ≠ .member → limit = none) :
    ((s.enterRun role k limit).setOrigin engine).RingLaw := by
  have idle := h.idle (by rw [roll]; nofun)
  obtain ⟨_, ⟨_, _, fault, cause⟩, ⟨holdOff, _, _, _, _, _, _, _, _, held, reading⟩⟩ := h
  rw [roll] at cause holdOff held reading
  obtain ⟨listed, _, placed⟩ := may
  have named : role ≠ .none := by obtain ⟨rfl, _⟩ | ⟨rfl, _⟩ := placed <;> nofun
  have origin : role = .origin ↔ k.position = 0 := by
    obtain ⟨rfl, behind, _⟩ | ⟨rfl, first, _⟩ := placed
    · exact ⟨nofun, fun first => absurd first behind⟩
    · exact ⟨fun _ => first, fun _ => rfl⟩
  have cleared : role ≠ .origin → engine = s.origin := by
    obtain ⟨_, _, same⟩ | ⟨rfl, _⟩ := placed
    · exact fun _ => same
    · exact fun other => absurd rfl other
  rw [s.enterRun_enters role k limit]
  refine ⟨⟨⟨fun _ => rfl, fun _ => rfl⟩, fun c hc => ?_, ⟨fun none => absurd none named, fun away => absurd rfl away⟩, ?_⟩,
    ⟨⟨fun _ => rfl, fun _ => rfl⟩, beq_iff_eq, fault, ⟨fun _ => nofun, fun _ => cause.2 nofun⟩⟩,
    fun runs => absurd (holdOff runs) nofun, fun runs => ?_, fun runs => ?_, fun other => ?_, nofun, ?_, fun _ => .inr rfl,
    nofun, ⟨nofun, fun away => absurd rfl away.2⟩, fun inReset => absurd (held inReset).1 nofun,
    fun reads => absurd (reading reads) nofun⟩
  · cases hc; exact listed
  · exact origin.trans ⟨congrArg some, Option.some.inj⟩
  · by_contra other
    have none := limited other
    rw [State.setOrigin_ring, none] at runs
    cases runs
  · rw [State.setOrigin_ring] at runs
    rw [show s.ring.frameMissing = none from idle.frameMissing] at runs
    cases runs
  · rw [State.setOrigin_origin, cleared other]
    exact idle.engine
  · rintro (⟨⟨⟩⟩ | ⟨c, hc, kind⟩)
    have := (List.mem_filter.1 hc).2
    rw [kind] at this
    cases this

end

end Sys2Proof.Machine
end

section
/-! SUPPORT. The ring controller's law through every step: the moves that stay in a ring state, and all together. -/
namespace Sys2Proof.Machine

section
variable {s t : State}

theorem State.RingLaw.origin_of_ne_rest (h : s.RingLaw)
    (busy : ¬(s.origin.frameTimer = none ∧ s.origin.lineSlot = none ∧ s.origin.readyFrame = none ∧ s.origin.lines = [] ∧
      s.origin.outstanding = [])) : s.ring.role = .origin := by
  obtain ⟨_, _, ⟨_, _, _, engine, _⟩⟩ := h
  by_contra other
  exact busy (engine other)

/-- At the origin the law lets the engine do what it does. -/
theorem State.RingLaw.setOrigin_of_origin (h : s.RingLaw) (role : s.ring.role = .origin) (o : OriginEngine) :
    (s.setOrigin o).RingLaw := by
  obtain ⟨roster, pins, ⟨holdOff, first, missing, _, rest⟩⟩ := h
  exact ⟨roster, pins, ⟨holdOff, first, missing, fun other => absurd role other, rest⟩⟩

theorem State.RingLaw.launchRoster (h : s.RingLaw) (roll : s.ring.state = .roll) :
    (s.setRing { s.ring with rosterTimer := none }).launchRoster.RingLaw := by
  obtain ⟨roster, pins, ⟨holdOff, first, missing, engine, elected, _, _, noOrigins, rest⟩⟩ := h
  exact ⟨roster, pins, ⟨holdOff, first, missing, engine, elected, fun _ => roll, fun _ => .inl roll, noOrigins, rest⟩⟩

theorem State.RingLaw.elect (h : s.RingLaw) (roll : s.ring.state = .roll) (r : RosterCell) : (s.elect r).RingLaw := by
  obtain ⟨roster, pins, ⟨holdOff, first, missing, engine, _, _, _, noOrigins, rest⟩⟩ := id h
  unfold State.elect
  split
  · exact h
  · exact ⟨roster, pins, ⟨holdOff, first, missing, engine, fun _ => roll, fun _ => roll, fun _ => .inl roll, noOrigins,
      rest⟩⟩

theorem State.RingLaw.queueBulletin (h : s.RingLaw) (b : Bulletin) : (s.place (.bulletin b)).RingLaw := by
  obtain ⟨roster, pins, ⟨holdOff, first, missing, engine, elected, rosters, commits, rest⟩⟩ := h
  have queued : ∀ {k : LaunchKind}, k ≠ .bulletin → (∃ c ∈ placeIn (.bulletin b) s.tx.launch, c.kind = k) →
      ∃ c ∈ s.tx.launch, c.kind = k := fun other placed => (placeIn_kind placed).resolve_left other.symm
  exact ⟨roster, pins, ⟨holdOff, first, missing, engine, elected, fun x => rosters (x.imp_right (queued nofun)),
    fun x => commits (x.imp_right (queued nofun)), rest⟩⟩

/-- A launch cell that leaves starts only a timer that its own kind allows (R138, R141). -/
theorem State.RingLaw.launchLeaves (h : s.RingLaw) {c : LaunchCell} {rest : List LaunchCell} {ring : Ring}
    (head : s.tx.launch = c :: rest) (starts : c.Starts s.ring ring) :
    ((s.setTx { s.tx with launch := rest }).setRing ring).RingLaw := by
  obtain ⟨roster, pins, ⟨holdOff, first, missing, engine, elected, rosters, commits, others⟩⟩ := h
  have queued : ∀ {k : LaunchKind}, (∃ d ∈ rest, d.kind = k) → ∃ d ∈ s.tx.launch, d.kind = k := by
    rintro k ⟨d, hd, kind⟩
    exact ⟨d, head ▸ List.mem_cons_of_mem c hd, kind⟩
  have here : ∃ d ∈ s.tx.launch, d.kind = c.kind := ⟨c, head ▸ List.mem_cons_self, rfl⟩
  cases starts
  case roster r d =>
    exact ⟨roster, pins, ⟨holdOff, first, missing, engine, elected, fun _ => rosters (.inr here),
      fun x => commits (x.imp_right queued), others⟩⟩
  case commit m d =>
    exact ⟨roster, pins, ⟨holdOff, first, missing, engine, elected, fun x => rosters (x.imp_right queued),
      fun _ => commits (.inr here), others⟩⟩
  all_goals
    exact ⟨roster, pins, ⟨holdOff, first, missing, engine, elected, fun x => rosters (x.imp_right queued),
      fun x => commits (x.imp_right queued), others⟩⟩

/-- A return at a station with no outstanding entry is stray (R87). -/
theorem OriginEngine.returned_of_nil {o : OriginEngine} (h : o.outstanding = []) (v : BlendValues) (m : MergeCell) :
    o.returned v m = { o with stray := satInc o.stray } := by
  unfold OriginEngine.returned
  rw [h]
  rfl

theorem OriginEngine.offeredMerge_eq_some {o : OriginEngine} {y : Nat} (h : o.offeredMerge = some y) :
    (∃ ys, o.lines = y :: ys) ∧ o.readyFrame = none ∧ o.outstanding.length < 64 := by
  unfold OriginEngine.offeredMerge at h
  split at h
  · next lines ready =>
    split at h
    · next room => cases h; exact ⟨⟨_, lines⟩, ready, room⟩
    · cases h
  · cases h

theorem State.Move.keeps_ringLaw (move : s.Move t) (h : s.RingLaw) : t.RingLaw := by
  have whole := h
  obtain ⟨roster, pins, ⟨holdOff, first, missing, engine, elected, rosters, commits, noOrigins, beacon, held, reading⟩⟩ := h
  cases move
  case aside aside => exact whole.of_control aside.control
  case released inReset =>
    obtain ⟨dark, _⟩ := held inReset
    exact ⟨roster, pins, ⟨holdOff, first, missing, engine, elected, rosters, commits, noOrigins, beacon, nofun,
      fun _ => dark⟩⟩
  case loads l reads _ =>
    refine ⟨roster, pins, ⟨holdOff, first, missing, engine, elected, rosters, commits, noOrigins, beacon, fun inReset => ?_,
      fun _ => reading reads⟩⟩
    exact absurd (reads.symm.trans (held inReset).2) nofun
  case leavesForRelay l cause start named => exact whole.darkToRelay start named
  case leavesForListen l c reads done _ => exact whole.darkToListen c reads done
  case returnsToListen r c roll _ => exact State.RingLaw.returnToListen (s := (s.setRx r).setChecker c) whole roll
  case entersRoll listen _ _ => exact whole.enterRoll listen
  case hearsRoster flag d stands =>
    have roll : s.ring.state = .roll := stands.elim id fun runs => noOrigins (.inl runs)
    exact ⟨roster, pins, ⟨holdOff, first, missing, engine, elected, rosters, commits, fun _ => roll, beacon, held,
      reading⟩⟩
  case relaunches runs => exact whole.launchRoster (rosters (.inl runs))
  case elects r roll => exact whole.elect roll r
  case entersRun role k limit engine roll may limited => exact whole.enterRun roll may limited
  case commitLimitStops =>
    exact ⟨roster, pins, ⟨holdOff, first, missing, engine, elected, rosters, fun x => commits (x.imp_left nofun), noOrigins,
      beacon, held, reading⟩⟩
  case watches a b member =>
    exact ⟨roster, pins, ⟨holdOff, fun _ => member, fun _ => member, engine, elected, rosters, commits, noOrigins, beacon,
      held, reading⟩⟩
  case halts r c engine record cell may _ =>
    exact whole.halted may (u := ((s.setRx r).setChecker c).setOrigin engine) rfl rfl rfl rfl
      (State.enterHalt_entered _ record cell)
  case faultHeldOff halt =>
    exact ⟨roster, pins, ⟨fun _ => halt, first, missing, engine, elected, rosters, commits, noOrigins, beacon, held,
      reading⟩⟩
  case holdOffEnds runs => exact whole.holdOffEnds runs
  case demoted cause runs named => exact whole.demoted runs named
  case beacons d runs =>
    exact ⟨roster, pins, ⟨holdOff, first, missing, engine, elected, rosters, commits, noOrigins,
      ⟨fun _ => beacon.1 runs, fun _ => rfl⟩, held, reading⟩⟩
  case queuesBulletin b => exact whole.queueBulletin b
  case launchLeaves c rest ring head starts => exact whole.launchLeaves head starts
  case slotExpires timer height k runs _ =>
    exact whole.setOrigin_of_origin (whole.origin_of_ne_rest fun ⟨stopped, _⟩ => by rw [stopped] at runs; cases runs) _
  case returns v m =>
    by_cases role : s.ring.role = .origin
    · exact whole.setOrigin_of_origin role _
    · obtain ⟨timer, slot, ready, lines, empty⟩ := engine role
      rw [OriginEngine.returned_of_nil empty]
      exact ⟨roster, pins, ⟨holdOff, first, missing, engine, elected, rosters, commits, noOrigins, beacon, held, reading⟩⟩
  case lapExpires entries launch lost _ =>
    exact whole.setOrigin_of_origin (whole.origin_of_ne_rest fun ⟨_, _, _, _, empty⟩ => loseOldest_ne_nil lost empty) _
  case resultLeaves e rest head =>
    exact whole.setOrigin_of_origin
      (whole.origin_of_ne_rest fun ⟨_, _, _, _, empty⟩ => by rw [empty] at head; cases head) _
  case frameLeaves f offered =>
    refine whole.setOrigin_of_origin (whole.origin_of_ne_rest fun ⟨_, _, absent, _⟩ => ?_) _
    rw [OriginEngine.offeredFrame, absent] at offered
    cases offered
  case spanLeaves y now offered =>
    obtain ⟨⟨ys, lines⟩, _⟩ := OriginEngine.offeredMerge_eq_some offered
    exact whole.setOrigin_of_origin
      (whole.origin_of_ne_rest fun ⟨_, _, _, empty, _⟩ => by rw [empty] at lines; cases lines) _
  all_goals
    exact ⟨roster, pins, ⟨holdOff, first, missing, engine, elected, rosters, commits, noOrigins, beacon, held, reading⟩⟩

theorem State.ringLaw_resetAll (s : State) : s.resetAll.RingLaw :=
  State.Idle.ringLaw ⟨rfl, rfl, rfl, rfl, rfl, rfl, rfl, rfl, rfl, rfl, rfl⟩
    ⟨rfl, rfl, rfl, List.forall_mem_nil _, rfl, rfl⟩ nofun ⟨rfl, ⟨fun _ => nofun, fun _ => rfl⟩⟩ nofun
    ⟨nofun, fun away => absurd rfl away⟩ (fun _ => ⟨rfl, rfl⟩) nofun

theorem State.RingLaw.frameTimerExpires (h : s.RingLaw) : s.frameTimerExpires.RingLaw := by
  obtain same | ⟨timer, runs, same⟩ := s.frameTimerExpires_cases
  · rw [same]; exact h
  · have role := h.origin_of_ne_rest fun ⟨stopped, _⟩ => by rw [stopped] at runs; cases runs
    rw [same]
    exact State.RingLaw.setOrigin_of_origin (s := s.reach _) h role _

theorem step_keeps_ringLaw (h : s.RingLaw) (ht : step s = .next t) : t.RingLaw :=
  step_keeps (fun _ _ => id) (fun u _ => u.ringLaw_resetAll) (fun _ _ move => move.keeps_ringLaw)
    (fun _ hu => hu.frameTimerExpires) ht h

/-- Settles O54: reset leaves the station idle in DARK; each move into HALT, LISTEN or RELAY leaves it idle, the move into
RUN gives ring, role and pins together, and every timer is started in the state or role it belongs to. -/
theorem everyStepKeepsTheRingLaw : Obligations.EveryStepKeepsTheRingLaw :=
  ⟨State.reset.ringLaw_resetAll, fun _ _ => step_keeps_ringLaw⟩

end

end Sys2Proof.Machine
end

section
/-! SUPPORT. The bounds of queues and counts (R57, R75, R82, R86, R106, R108, R112, R176) through every step. -/
namespace Sys2Proof.Machine

section
variable {s t : State}

/-! ## The origin engine's own steps -/

/-- A line slot changes the lines that wait, the lines skipped and the slot timer alone (R80). -/
theorem OriginEngine.slotExpired_kept (o : OriginEngine) (height k : Nat) :
    (o.slotExpired height k).outstanding = o.outstanding ∧ (o.slotExpired height k).lapCount = o.lapCount ∧
      (o.slotExpired height k).nextSpan = o.nextSpan ∧ (o.slotExpired height k).frameNumber = o.frameNumber ∧
      (o.slotExpired height k).readyFrame = o.readyFrame := by
  unfold OriginEngine.slotExpired OriginEngine.slotLine
  split_ifs <;> exact ⟨rfl, rfl, rfl, rfl, rfl⟩

/-- A return counts a stray, or changes states in the outstanding list and clears the lap-limit count (R87). -/
theorem OriginEngine.returned_cases (o : OriginEngine) (v : BlendValues) (m : MergeCell) :
    o.returned v m = { o with stray := satInc o.stray } ∨
      ∃ entries n, matchReturn m.frame m.line m.span (m.pairs.map (resolve v)) o.outstanding = some (entries, n) ∧
        o.returned v m =
          { o with outstanding := entries, lostByOrder := satAdd o.lostByOrder n, lapCount := 0 } := by
  unfold OriginEngine.returned
  split
  · exact .inl rfl
  · next entries n found => exact .inr ⟨entries, n, found, rfl⟩

/-! ## The law of queues and counts -/

theorem State.RingLaw.committed_of_lines (h : s.RingLaw) (busy : s.origin.lines ≠ []) :
    ∃ k, s.ring.committed = some k := by
  have role : s.ring.role = .origin := h.origin_of_ne_rest fun ⟨_, _, _, empty, _⟩ => busy empty
  obtain ⟨⟨_, _, _, first⟩, _⟩ := h
  have placed := first.1 role
  unfold State.position at placed
  split at placed
  · cases placed
  · next k held => exact ⟨k, held⟩

theorem State.QueueLaw.of_aside (h : s.QueueLaw) (aside : s.Aside t) : t.QueueLaw := by
  obtain ⟨forward, kinds, cues, begun, lines, outstanding, probe, retry, lap, idle, span⟩ := h
  have kept := aside.control
  have loader : t.loader = s.loader := congrArg Control.loader kept
  have ring : t.ring = s.ring := congrArg Control.ring kept
  have origin : t.origin = s.origin := congrArg Control.origin kept
  have launch : t.tx.launch = s.tx.launch := congrArg Control.launch kept
  have position : t.tx.probePosition = s.tx.probePosition := congrArg Control.probePosition kept
  obtain ⟨cues', begun'⟩ := aside.cues ⟨cues, begun⟩
  unfold State.QueueLaw
  rw [loader, ring, origin, launch, position]
  exact ⟨aside.forward forward, kinds, cues', begun', lines, outstanding, probe, retry, lap, idle, span⟩

/-- A COMMIT of good form spans at least one span, and the engine's next span is its first. -/
theorem State.QueueLaw.enterRun (h : s.QueueLaw) (ring : s.RingLaw) (roll : s.ring.state = .roll) {role : Role}
    {k : Committed} {engine : OriginEngine} (limit : Timer) (may : s.MayRun role k engine) :
    ((s.enterRun role k limit).setOrigin engine).QueueLaw := by
  obtain ⟨forward, kinds, cues, begun, lines, outstanding, probe, retry, lap, idle, _⟩ := h
  obtain ⟨_, wide, placed⟩ := may
  have first := idle (ring.idle (by rw [roll]; nofun)).committed
  have fresh : engine.lines.length ≤ 2 ∧ engine.outstanding.length ≤ 64 ∧ engine.lapCount ≤ 2 ∧ engine.nextSpan = 0 := by
    obtain ⟨_, _, rfl⟩ | ⟨_, _, rfl⟩ := placed
    · exact ⟨lines, outstanding, lap, first⟩
    · exact ⟨Nat.zero_le _, Nat.zero_le _, Nat.zero_le _, rfl⟩
  obtain ⟨lines', outstanding', lap', next⟩ := fresh
  rw [s.enterRun_enters role k limit]
  refine ⟨forward, kinds.sublist (List.filter_sublist.map _), cues, begun, lines', outstanding', probe, retry, lap', nofun,
    fun c hc => ?_⟩
  cases hc
  exact next ▸ wide

theorem State.HaltEntered.queueLaw {r : HaltRecord} {cell : CellBytes} (e : s.HaltEntered r cell t)
    (probe : s.tx.probePosition ≤ 126) (retry : s.loader.retry ≤ 3) : t.QueueLaw := by
  obtain ⟨_, loader, _⟩ := e.kept
  obtain ⟨cues, begun⟩ := e.cuesBounded
  unfold State.QueueLaw
  rw [e.queues, e.origin, e.ring, loader]
  exact ⟨Nat.zero_le 4, List.nodup_singleton _, cues, begun, Nat.zero_le 2, Nat.zero_le 64, probe, retry, Nat.zero_le 2,
    fun _ => rfl, nofun⟩

/-- A merge launch takes a place of the outstanding list that was free, and a span below the committed width (R84). -/
theorem State.QueueLaw.spanLeaves (h : s.QueueLaw) (ring : s.RingLaw) {y : Nat} (now : Nat)
    (offered : s.origin.offeredMerge = some y) :
    (s.setOrigin (s.origin.launched s.format.spans y now)).QueueLaw := by
  obtain ⟨forward, kinds, cues, begun, lines, _, probe, retry, lap, _, span⟩ := h
  obtain ⟨⟨ys, waiting⟩, _, room⟩ := OriginEngine.offeredMerge_eq_some offered
  obtain ⟨k, held⟩ := ring.committed_of_lines (by rw [waiting]; nofun)
  have width : s.format.spans = k.format.spans := by rw [State.format, held]
  have below := span k held
  have grown : ∀ e : OutEntry, (s.origin.outstanding ++ [e]).length ≤ 64 := fun e => by
    rw [List.length_append, List.length_singleton]
    exact room
  unfold OriginEngine.launched
  dsimp only
  rw [width]
  split
  · refine ⟨forward, kinds, cues, begun, (List.drop_sublist 1 _).length_le.trans lines, grown _, probe, retry, lap,
      fun _ => rfl, fun c hc => ?_⟩
    rw [State.setOrigin_ring, held] at hc
    cases hc
    exact Nat.zero_lt_of_lt below
  · refine ⟨forward, kinds, cues, begun, lines, grown _, probe, retry, lap, fun none => ?_, fun c hc => ?_⟩
    · rw [State.setOrigin_ring, held] at none
      cases none
    · rw [State.setOrigin_ring, held] at hc
      cases hc
      exact Nat.lt_of_le_of_ne below ‹_›

theorem State.Move.keeps_queueLaw (move : s.Move t) (ring : s.RingLaw) (h : s.QueueLaw) : t.QueueLaw := by
  have whole := h
  obtain ⟨forward, kinds, cues, begun, lines, outstanding, probe, retry, lap, idle, span⟩ := h
  cases move
  case aside aside => exact whole.of_aside aside
  case loads l _ bound => exact ⟨forward, kinds, cues, begun, lines, outstanding, probe, bound retry, lap, idle, span⟩
  case leavesForRelay l cause start _ =>
    have same : l.retry = s.loader.retry := by
      obtain ⟨_, rfl⟩ | ⟨_, _, same⟩ := start
      · rfl
      · exact same
    rw [State.darkToRelay_eq]
    exact ⟨Nat.zero_le 4, List.nodup_nil, cues, begun, lines, outstanding, probe, same.le.trans retry, lap, idle, span⟩
  case leavesForListen l c _ _ same =>
    exact ⟨forward, kinds, cues, begun, lines, outstanding, probe, same.le.trans retry, lap, idle, span⟩
  case returnsToListen =>
    exact ⟨Nat.zero_le 4, List.nodup_nil, cues, begun, lines, outstanding, probe, retry, lap, idle, span⟩
  case entersRoll =>
    unfold State.enterRoll
    dsimp only
    split
    · exact ⟨forward, placeIn_kinds _ _ kinds, cues, begun, lines, outstanding, probe, retry, lap, idle, span⟩
    · exact ⟨forward, kinds, cues, begun, lines, outstanding, probe, retry, lap, idle, span⟩
  case relaunches =>
    exact ⟨forward, placeIn_kinds _ _ kinds, cues, begun, lines, outstanding, probe, retry, lap, idle, span⟩
  case elects r _ =>
    unfold State.elect
    split
    · exact whole
    · exact ⟨forward, placeIn_kinds _ _ (kinds.sublist (List.filter_sublist.map _)), cues, begun, lines, outstanding, probe,
        retry, lap, idle, span⟩
  case entersRun role k limit engine roll may _ => exact whole.enterRun ring roll limit may
  case halts r c engine record cell may _ =>
    exact ((((s.setRx r).setChecker c).setOrigin engine).enterHalt_entered record cell).queueLaw probe retry
  case demoted =>
    rw [State.enterRelay_eq]
    exact ⟨Nat.zero_le 4, List.nodup_nil, cues, begun, lines, outstanding, probe, retry, lap, idle, span⟩
  case queuesBulletin b =>
    exact ⟨forward, placeIn_kinds _ _ kinds, cues, begun, lines, outstanding, probe, retry, lap, idle, span⟩
  case probeLeaves =>
    exact ⟨forward, kinds, cues, begun, lines, outstanding, probeAdvance_le _, retry, lap, idle, span⟩
  case launchLeaves c rest _ head starts =>
    have fewer : (rest.map LaunchCell.kind).Nodup := by
      rw [head] at kinds
      exact (List.nodup_cons.1 kinds).2
    cases starts <;>
      exact ⟨forward, fewer, cues, begun, lines, outstanding, probe, retry, lap, idle, span⟩
  case slotExpires timer height k _ _ =>
    obtain ⟨sameList, sameLap, sameSpan, _⟩ := s.origin.slotExpired_kept height k
    unfold State.QueueLaw
    rw [State.setOrigin_origin, sameList, sameLap, sameSpan]
    exact ⟨forward, kinds, cues, begun, s.origin.slotLine_lines k lines, outstanding, probe, retry, lap, idle, span⟩
  case returns v m =>
    obtain stray | ⟨entries, n, found, same⟩ := s.origin.returned_cases v m
    · rw [stray]
      exact ⟨forward, kinds, cues, begun, lines, outstanding, probe, retry, lap, idle, span⟩
    · rw [same]
      exact ⟨forward, kinds, cues, begun, lines, (matchReturn_length _ _ _ _ _ _ _ found).le.trans outstanding, probe,
        retry, Nat.zero_le 2, idle, span⟩
  case lapExpires entries launch lost short =>
    exact ⟨forward, kinds, cues, begun, lines, (loseOldest_length _ _ _ lost).le.trans outstanding, probe, retry,
      Nat.lt_of_le_of_ne lap short, idle, span⟩
  case resultLeaves e rest head =>
    have fewer : rest.length ≤ 64 := by
      rw [head] at outstanding
      exact Nat.le_of_succ_le outstanding
    exact ⟨forward, kinds, cues, begun, lines, fewer, probe, retry, lap, idle, span⟩
  case spanLeaves y now offered => exact whole.spanLeaves ring now offered
  all_goals exact ⟨forward, kinds, cues, begun, lines, outstanding, probe, retry, lap, idle, span⟩

theorem State.queueLaw_resetAll (s : State) : s.resetAll.QueueLaw :=
  ⟨Nat.zero_le 4, List.nodup_nil, Nat.zero_le 8, nofun, Nat.zero_le 2, Nat.zero_le 64, Nat.zero_le 126, Nat.zero_le 3,
    Nat.zero_le 2, fun _ => rfl, nofun⟩

theorem State.QueueLaw.frameTimerExpires (h : s.QueueLaw) : s.frameTimerExpires.QueueLaw := by
  obtain same | ⟨timer, _, same⟩ := s.frameTimerExpires_cases <;> rw [same]
  · exact h
  · obtain ⟨forward, kinds, cues, begun, _, outstanding, probe, retry, lap, _, span⟩ := h
    exact ⟨forward, kinds, cues, begun, Nat.zero_le 2, outstanding, probe, retry, lap, fun _ => rfl,
      fun k held => Nat.zero_lt_of_lt (span k held)⟩

theorem step_keeps_queueLaw (ring : s.RingLaw) (h : s.QueueLaw) (ht : step s = .next t) : t.QueueLaw :=
  (step_keeps (P := fun u => u.RingLaw ∧ u.QueueLaw) (fun _ _ => id)
    (fun u _ => ⟨u.ringLaw_resetAll, u.queueLaw_resetAll⟩)
    (fun _ _ move hu => ⟨move.keeps_ringLaw hu.1, move.keeps_queueLaw hu.1 hu.2⟩)
    (fun _ hu => ⟨hu.1.frameTimerExpires, hu.2.frameTimerExpires⟩) ht ⟨ring, h⟩).2

end

end Sys2Proof.Machine
end

section
/-! SUPPORT. Each span of a frame once in the outstanding list (R86), through every step. -/
namespace Sys2Proof.Machine

/-- The frame, line and span an outstanding entry stands for. -/
def OutEntry.place (e : OutEntry) : Half × Nat × Nat := (e.frame, e.line, e.span)

section
variable {s t : State}

/-! ## Returns and losses change states alone -/

theorem matchReturn_places {f : Half} {l p : Nat} {cs : List Colour} {es es' : List OutEntry} {n : Nat}
    (h : matchReturn f l p cs es = some (es', n)) : es'.map OutEntry.place = es.map OutEntry.place := by
  induction es generalizing es' n with
  | nil => cases h
  | cons e rest ih =>
    rw [matchReturn] at h
    split at h
    · cases h; rfl
    · split at h
      · cases h
      · next r m hr =>
        split at h <;> cases h <;> exact congrArg (_ :: ·) (ih hr)

theorem loseOldest_places {es es' : List OutEntry} {launch : Nat} (h : loseOldest es = some (es', launch)) :
    es'.map OutEntry.place = es.map OutEntry.place := by
  induction es generalizing es' launch with
  | nil => cases h
  | cons e rest ih =>
    rw [loseOldest] at h
    split at h
    · cases h; rfl
    · split at h
      · cases h
      · next r m hr => cases h; exact congrArg (_ :: ·) (ih hr)

/-! ## What the law looks at -/

theorem State.SpanLaw.of_origin (h : s.SpanLaw) (origin : t.origin = s.origin) : t.SpanLaw := by
  unfold State.SpanLaw
  rw [origin]
  exact h

/-- An engine with nothing outstanding and nothing to launch. -/
theorem State.spanLaw_of_rest (outstanding : t.origin.outstanding = []) (lines : t.origin.lines = [])
    (slot : t.origin.lineSlot = none) (ready : t.origin.readyFrame = none) : t.SpanLaw := by
  unfold State.SpanLaw
  rw [outstanding, lines, slot, ready]
  exact ⟨List.nodup_nil, fun _ => ⟨rfl, rfl, rfl, rfl⟩, .nil, nofun, nofun, fun _ _ _ => List.forall_mem_nil _⟩

/-- The law asks of an entry only where it stands. -/
theorem State.SpanLaw.of_places (h : s.SpanLaw) {o : OriginEngine}
    (places : o.outstanding.map OutEntry.place = s.origin.outstanding.map OutEntry.place)
    (number : o.frameNumber = s.origin.frameNumber) (lines : o.lines = s.origin.lines)
    (slot : o.lineSlot = s.origin.lineSlot) (ready : o.readyFrame = s.origin.readyFrame)
    (next : o.nextSpan = s.origin.nextSpan) : (s.setOrigin o).SpanLaw := by
  obtain ⟨once, fresh, sorted, below, waiting, launched⟩ := h
  have moved : ∀ e ∈ o.outstanding, ∃ d ∈ s.origin.outstanding, d.frame = e.frame ∧ d.line = e.line ∧ d.span = e.span := by
    intro e he
    obtain ⟨d, hd, same⟩ := List.mem_map.1 (places ▸ List.mem_map_of_mem (f := OutEntry.place) he)
    obtain ⟨frame, line, span⟩ : d.frame = e.frame ∧ d.line = e.line ∧ d.span = e.span := by
      simpa [OutEntry.place] using same
    exact ⟨d, hd, frame, line, span⟩
  unfold State.SpanLaw
  rw [State.setOrigin_origin, number, lines, slot, ready, next]
  refine ⟨places.symm ▸ once, fun none => ?_, sorted, below, fun f hf => ?_, fun hr n hn e he hen => ?_⟩
  · obtain ⟨noLines, noSlot, notReady, empty⟩ := fresh none
    rw [empty] at places
    exact ⟨noLines, noSlot, notReady, List.map_eq_nil_iff.1 places⟩
  · obtain ⟨numbered, others⟩ := waiting f hf
    refine ⟨numbered, fun e he => ?_⟩
    obtain ⟨d, hd, frame, _⟩ := moved e he
    exact frame ▸ others d hd
  · obtain ⟨d, hd, frame, line, span⟩ := moved e he
    obtain ⟨before, passed⟩ := launched hr n hn d hd (frame.trans hen)
    rw [← line, ← span]
    exact ⟨before, passed⟩

/-! ## The origin engine's own steps -/

/-- A slot's line is above every line that waits and every line launched (R80). -/
theorem State.SpanLaw.slotExpires (h : s.SpanLaw) (height : Nat) {k : Nat} (slot : s.origin.lineSlot = some k) :
    (s.setOrigin (s.origin.slotExpired height k)).SpanLaw := by
  obtain ⟨once, fresh, sorted, below, waiting, launched⟩ := h
  have numbered : s.origin.frameNumber ≠ none := fun none => by
    rw [(fresh none).2.1] at slot
    cases slot
  obtain ⟨sameList, _, sameNext, sameNumber, sameReady⟩ := s.origin.slotExpired_kept height k
  have grown : (s.origin.slotExpired height k).lines = s.origin.lines ∨
      8 ≤ k ∧ (s.origin.slotExpired height k).lines = s.origin.lines ++ [k - 8] := by
    change (s.origin.slotLine k).lines = s.origin.lines ∨ 8 ≤ k ∧ (s.origin.slotLine k).lines = s.origin.lines ++ [k - 8]
    unfold OriginEngine.slotLine
    split_ifs with early
    · exact .inl rfl
    · exact .inr ⟨Nat.not_lt.1 early, rfl⟩
    · exact .inl rfl
  have later : ∀ k', (s.origin.slotExpired height k).lineSlot = some k' → k' = k + 1 := by
    intro k' hk
    change (if k < height + 7 then some (k + 1) else none) = some k' at hk
    split at hk
    · exact (Option.some.inj hk).symm
    · cases hk
  have under := below k slot
  unfold State.SpanLaw
  rw [State.setOrigin_origin, sameList, sameNext, sameNumber, sameReady]
  refine ⟨once, fun none => absurd none numbered, ?_, fun k' hk y hy => ?_, waiting, fun hr n hn e he hen => ?_⟩
  · obtain same | ⟨late, same⟩ := grown <;> rw [same]
    · exact sorted
    · refine List.pairwise_append.2 ⟨sorted, List.pairwise_singleton _ _, fun y hy z hz => ?_⟩
      have := under y hy
      have := List.mem_singleton.1 hz
      omega
  · rw [later k' hk]
    obtain same | ⟨late, same⟩ := grown <;> rw [same] at hy
    · exact Nat.lt_succ_of_lt (under y hy)
    · obtain old | new := List.mem_append.1 hy
      · exact Nat.lt_succ_of_lt (under y old)
      · have := List.mem_singleton.1 new
        omega
  · obtain ⟨before, passed⟩ := launched hr n hn e he hen
    refine ⟨fun y ys hl => ?_, fun k' hk => later k' hk ▸ Nat.lt_succ_of_lt (passed k slot)⟩
    obtain same | ⟨late, same⟩ := grown <;> rw [same] at hl
    · exact before y ys hl
    · cases hq : s.origin.lines with
      | nil =>
        rw [hq] at hl
        cases hl
        have := passed k slot
        exact .inl (by omega)
      | cons z zs =>
        rw [hq] at hl
        cases hl
        exact before y zs hq

theorem State.SpanLaw.resultLeaves (h : s.SpanLaw) {e : OutEntry} {rest : List OutEntry}
    (head : s.origin.outstanding = e :: rest) : (s.setOrigin { s.origin with outstanding := rest }).SpanLaw := by
  obtain ⟨once, fresh, sorted, below, waiting, launched⟩ := h
  have kept : ∀ d ∈ rest, d ∈ s.origin.outstanding := fun d hd => head ▸ List.mem_cons_of_mem e hd
  refine ⟨?_, fun none => ?_, sorted, below, fun f hf => ⟨(waiting f hf).1, fun d hd => (waiting f hf).2 d (kept d hd)⟩,
    fun hr n hn d hd => launched hr n hn d (kept d hd)⟩
  · rw [head] at once
    exact (List.nodup_cons.1 once).2
  · rw [head] at fresh
    exact absurd (fresh none).2.2.2 (List.cons_ne_nil _ _)

/-- The FRAME that leaves finds no entry outstanding: an entry of another frame holds it (R79), and none is its own. -/
theorem State.SpanLaw.frameLeaves (h : s.SpanLaw) {f : Half} (offered : s.origin.offeredFrame = some f) :
    (s.setOrigin { s.origin with readyFrame := none }).SpanLaw := by
  obtain ⟨_, fresh, sorted, below, waiting, _⟩ := h
  unfold OriginEngine.offeredFrame at offered
  split at offered
  · cases offered
  · next g ready =>
    split at offered
    · next own =>
      obtain ⟨numbered, others⟩ := waiting g ready
      have empty : s.origin.outstanding = [] := List.eq_nil_iff_forall_not_mem.2 fun e he =>
        others e he (beq_iff_eq.1 (List.all_eq_true.1 own e he))
      refine ⟨?_, fun none => ?_, sorted, below, nofun, fun _ _ _ => ?_⟩
      · rw [State.setOrigin_origin, empty]
        exact List.nodup_nil
      · exact absurd (numbered.symm.trans none) nofun
      · rw [State.setOrigin_origin, empty]
        exact List.forall_mem_nil _
    · cases offered

/-- A merge launch adds the next span of the frame to the outstanding list (R84). -/
theorem OriginEngine.launched_kept (o : OriginEngine) (spans y now : Nat) :
    (o.launched spans y now).frameNumber = o.frameNumber ∧ (o.launched spans y now).lineSlot = o.lineSlot ∧
      (o.launched spans y now).readyFrame = o.readyFrame ∧
      (o.launched spans y now).outstanding = o.outstanding ++
        [{ frame := o.frameNumber.getD 0, line := y, span := o.nextSpan, launch := now, state := .inFlight }] := by
  unfold OriginEngine.launched
  dsimp only
  split <;> exact ⟨rfl, rfl, rfl, rfl⟩

/-- It ends its line with the line's last span, and goes to the next span with any other (R84). -/
theorem OriginEngine.launched_next (o : OriginEngine) (spans y now : Nat) :
    (o.launched spans y now).lines = o.lines.drop 1 ∨
      (o.launched spans y now).lines = o.lines ∧ (o.launched spans y now).nextSpan = o.nextSpan + 1 := by
  unfold OriginEngine.launched
  dsimp only
  split
  · exact .inl rfl
  · exact .inr ⟨rfl, rfl⟩

/-- The span that leaves is the next one: every entry of its frame lies before it (R84, R86). -/
theorem State.SpanLaw.spanLeaves (h : s.SpanLaw) {y : Nat} (spans now : Nat) (offered : s.origin.offeredMerge = some y) :
    (s.setOrigin (s.origin.launched spans y now)).SpanLaw := by
  obtain ⟨once, fresh, sorted, below, _, launched⟩ := h
  obtain ⟨⟨ys, lines⟩, ready, _⟩ := OriginEngine.offeredMerge_eq_some offered
  obtain ⟨n, number⟩ : ∃ n, s.origin.frameNumber = some n := by
    refine Option.ne_none_iff_exists'.1 fun none => ?_
    rw [(fresh none).1] at lines
    cases lines
  have before : ∀ e ∈ s.origin.outstanding, e.frame = n → e.line < y ∨ (e.line = y ∧ e.span < s.origin.nextSpan) :=
    fun e he hen => (launched ready n number e he hen).1 y ys lines
  have slots : ∀ k, s.origin.lineSlot = some k → ∀ e ∈ s.origin.outstanding, e.frame = n → e.line + 8 < k :=
    fun k hk e he hen => (launched ready n number e he hen).2 k hk
  obtain ⟨sameNumber, sameSlot, sameReady, added⟩ := s.origin.launched_kept spans y now
  have next := s.origin.launched_next spans y now
  rw [lines] at sorted below next
  rw [number, Option.getD_some] at added
  obtain ⟨above, sortedRest⟩ := List.pairwise_cons.1 sorted
  have fewer : (s.origin.launched spans y now).lines.Sublist (y :: ys) := by
    obtain same | ⟨same, _⟩ := next <;> rw [same]
    exact List.drop_sublist 1 _
  have passes : ∀ e : OutEntry, (e.line < y ∨ (e.line = y ∧ e.span ≤ s.origin.nextSpan)) → ∀ z zs,
      (s.origin.launched spans y now).lines = z :: zs →
        e.line < z ∨ (e.line = z ∧ e.span < (s.origin.launched spans y now).nextSpan) := by
    intro e he z zs hz
    obtain same | ⟨same, further⟩ := next <;> rw [same] at hz
    · have := above z (by rw [show ys = z :: zs from hz]; exact List.mem_cons_self)
      omega
    · obtain ⟨rfl, _⟩ := List.cons.inj hz
      omega
  unfold State.SpanLaw
  rw [State.setOrigin_origin, sameNumber, sameSlot, sameReady, added]
  refine ⟨?_, fun none => absurd (number.symm.trans none) nofun, sorted.sublist fewer,
    fun k hk z hz => below k hk z (fewer.subset hz), fun f hf => absurd (ready.symm.trans hf) nofun,
    fun _ m hm e he hem => ?_⟩
  · rw [List.map_append, List.nodup_append]
    refine ⟨once, List.nodup_singleton _, fun a ha b hb same => ?_⟩
    obtain ⟨e, he, rfl⟩ := List.mem_map.1 ha
    rw [List.mem_singleton.1 hb] at same
    simp only [Prod.mk.injEq] at same
    obtain ⟨hf, hl, hs⟩ := same
    have := before e he hf
    omega
  · obtain rfl : n = m := Option.some.inj (number.symm.trans hm)
    obtain old | new := List.mem_append.1 he
    · have := before e old hem
      exact ⟨passes e (by omega), fun k hk => slots k hk e old hem⟩
    · rw [List.mem_singleton.1 new]
      exact ⟨passes _ (.inr ⟨rfl, Nat.le_refl _⟩), fun k hk => below k hk y List.mem_cons_self⟩

/-! ## Moves and steps -/

theorem State.Move.keeps_spanLaw (move : s.Move t) (h : s.SpanLaw) : t.SpanLaw := by
  have kept : t.origin = s.origin → t.SpanLaw := h.of_origin
  cases move
  case aside aside => exact kept (congrArg Control.origin aside.control)
  case entersRoll => exact kept s.enterRoll_kept.2.2.2
  case elects r _ => exact kept (s.elect_kept r).2.2.2
  case entersRun role k limit engine _ may _ =>
    obtain ⟨_, _, ⟨_, _, same⟩ | ⟨_, _, same⟩⟩ := may
    · exact kept ((State.setOrigin_origin _ _).trans same)
    · apply State.spanLaw_of_rest <;> rw [State.setOrigin_origin, same] <;> rfl
  case halts r c engine record cell _ _ =>
    have entered := (((s.setRx r).setChecker c).setOrigin engine).enterHalt_entered record cell
    apply State.spanLaw_of_rest <;> rw [entered.origin]
  case slotExpires timer height k _ slot => exact h.slotExpires height slot
  case returns v m =>
    obtain stray | ⟨entries, n, found, same⟩ := s.origin.returned_cases v m
    · rw [stray]
      exact h.of_places rfl rfl rfl rfl rfl rfl
    · rw [same]
      exact h.of_places (matchReturn_places found) rfl rfl rfl rfl rfl
  case lapExpires entries launch lost _ => exact h.of_places (loseOldest_places lost) rfl rfl rfl rfl rfl
  case resultLeaves e rest head => exact h.resultLeaves head
  case frameLeaves f offered => exact h.frameLeaves offered
  case spanLeaves y now offered => exact h.spanLeaves _ now offered
  all_goals exact kept rfl

theorem State.spanLaw_resetAll (s : State) : s.resetAll.SpanLaw := State.spanLaw_of_rest rfl rfl rfl rfl

/-- A new frame begins with none of its spans outstanding: its number was none before, or no entry bears it (R77). -/
theorem State.SpanLaw.frameTimerExpires (h : s.SpanLaw)
    (unused : ∀ n, s.origin.frameNumber = some n → ∀ e ∈ s.origin.outstanding, e.frame ≠ n + 1) :
    s.frameTimerExpires.SpanLaw := by
  obtain same | ⟨timer, _, same⟩ := s.frameTimerExpires_cases <;> rw [same]
  · exact h
  · obtain ⟨once, fresh, _⟩ := h
    refine ⟨once, nofun, .nil, fun _ _ => List.forall_mem_nil _, fun f hf => ⟨hf, fun e he => ?_⟩, nofun⟩
    cases hf
    change e ∈ s.origin.outstanding at he
    unfold OriginEngine.nextNumber
    cases number : s.origin.frameNumber with
    | none =>
      rw [(fresh number).2.2.2] at he
      cases he
    | some n => exact unused n number e he

theorem exec_keeps_spanLaw {c : Instr} (h : s.SpanLaw)
    (unused : c = .frameTimerExpiry → ∀ n, s.origin.frameNumber = some n → ∀ e ∈ s.origin.outstanding, e.frame ≠ n + 1)
    (ht : exec c s = .next t) : t.SpanLaw := by
  by_cases hr : c = .reset
  · subst hr; cases ht
    exact s.spanLaw_resetAll
  · by_cases hf : c = .frameTimerExpiry
    · subst hf; cases ht
      unfold State.live
      split
      · exact h
      · exact h.frameTimerExpires (unused rfl)
    · exact (exec_moves c hr hf ht).keeps (fun _ _ move => move.keeps_spanLaw) h

theorem step_keeps_spanLaw (h : s.SpanLaw)
    (unused : ∀ rest n, s.pending = .frameTimerExpiry :: rest → s.origin.frameNumber = some n →
      ∀ e ∈ s.origin.outstanding, e.frame ≠ n + 1) (ht : step s = .next t) : t.SpanLaw := by
  unfold step at ht
  split at ht
  · cases ht; exact h
  · next c rest pending =>
    refine exec_keeps_spanLaw (s := s.setPending rest) h (fun hc n number => ?_) ht
    exact unused rest n (hc ▸ pending) number

/-- Settles O58: the bounds by the moves of a station that keeps the ring law, and R86 by what makes it last: lines wait in
increasing order below the next slot's, and every entry of the frame lies before the next span. -/
theorem everyStepKeepsTheQueueAndSpanLaws : Obligations.EveryStepKeepsTheQueueAndSpanLaws :=
  ⟨fun _ _ ring law ht => step_keeps_queueLaw ring law ht, fun _ _ law unused ht => step_keeps_spanLaw law unused ht⟩

/-- Settles O60: RESET of any station, and so the state after reset, keeps each of the seven laws. -/
theorem theLawsHoldAfterReset : Obligations.TheLawsHoldAfterReset :=
  ⟨State.reset.ringLaw_resetAll, State.reset.linkLaw_resetAll, State.lineStoreLaw_reset, State.tapLaw_reset,
    State.reset.queueLaw_resetAll, State.reset.spanLaw_resetAll, State.reset.layerLaw_resetAll⟩

end

end Sys2Proof.Machine
end

section
/-! SUPPORT. The queue of commands, reset and start-up (chapter 11), and events that cannot arise. -/
namespace Sys2Proof.Machine

section
variable {s t : State}

/-! ## Commands under a reset and at a running station -/

theorem State.live_held (h : s.inReset = true) (f : State → State) : s.live f = s := if_pos h

theorem State.live_idle {f : State → State} (h : f s = s) : s.live f = s := by
  unfold State.live
  rw [h, ite_self]

/-- The answer of a command of a running station. -/
theorem next_live (running : s.inReset = false) (f : State → State) (h : f s = t) :
    (Host.Outcome.next (s.live f) : Host.Outcome State Fault Refusal) = .next t :=
  congrArg Host.Outcome.next ((State.live_running running f).trans h)

/-- The answer of a cell at a station that hears it. -/
theorem next_arrive (hears : s.Hears) (f : State → State) (h : f s.heard = t) :
    (Host.Outcome.next (s.arrive f) : Host.Outcome State Fault Refusal) = .next t :=
  congrArg Host.Outcome.next ((State.arrive_hears hears f).trans h)

/-- Settles O1: `step` is the match on the queue. -/
theorem stepRunsTheFrontCommand : Obligations.StepRunsTheFrontCommand :=
  ⟨fun _ _ _ => rfl, fun s empty => by unfold step; rw [empty]⟩

/-- Settles O3: RESET is the reset state with the station's serial, choices and queue; the release reads the strap. -/
theorem resetAndItsReleaseBeginStartUp : Obligations.ResetAndItsReleaseBeginStartUp := by
  refine ⟨fun _ => rfl, fun s held => ⟨?_, ?_⟩⟩
  · exact congrArg Host.Outcome.next ((if_pos held).trans (State.darkToRelay_eq _ _))
  · exact congrArg Host.Outcome.next (if_pos held)

/-! ## The loader's attempts -/

theorem Loader.inAttempt_iff (l : Loader) : l.inAttempt = true ↔ l.state = .reading ∧ l.wait = none := by
  unfold Loader.inAttempt
  simp only [Bool.and_eq_true, beq_iff_eq]

theorem State.attemptFails_idle (h : ¬(s.loader.state = .reading ∧ s.loader.wait = none)) (phase : AttemptPhase) :
    s.attemptFails phase = s :=
  if_neg (h ∘ s.loader.inAttempt_iff.1)

theorem State.attemptSucceeds_idle (h : ¬(s.loader.state = .reading ∧ s.loader.wait = none)) (image : List Byte) :
    s.attemptSucceeds image = s :=
  if_neg (h ∘ s.loader.inAttempt_iff.1)

theorem State.attemptFails_again (h : s.loader.state = .reading ∧ s.loader.wait = none) (room : s.loader.retry < 3)
    (phase : AttemptPhase) :
    s.attemptFails phase =
      s.setLoader { s.loader with retry := s.loader.retry + 1, wait := s.after retryPeriods, bus := busFailed phase } :=
  (if_pos (s.loader.inAttempt_iff.2 h)).trans (if_pos room)

theorem State.attemptFails_last (h : s.loader.state = .reading ∧ s.loader.wait = none) (last : ¬s.loader.retry < 3)
    (phase : AttemptPhase) :
    s.attemptFails phase =
      (s.setLoader { s.loader with state := .absent, bus := busFailed phase }).darkToRelay .configAbsent :=
  (if_pos (s.loader.inAttempt_iff.2 h)).trans (if_neg last)

theorem busFailed_eq (phase : AttemptPhase) : busFailed phase = failedTransfer phase := by
  cases phase <;> rfl

/-- Settles O5: three failures wait, the fourth leaves DARK for RELAY, and a wait that ends begins an attempt. -/
theorem theLoaderRetriesThreeTimes : Obligations.TheLoaderRetriesThreeTimes := by
  refine ⟨fun phase s running reading idle room => ?_, fun phase s running reading idle full => ?_,
    fun s d running reading waits => ?_⟩
  · refine next_live running _ ?_
    rw [State.attemptFails_again ⟨reading, idle⟩ room, busFailed_eq]
    rfl
  · refine next_live running _ ?_
    rw [State.attemptFails_last ⟨reading, idle⟩ (by omega), State.darkToRelay_eq, busFailed_eq]
    rfl
  · refine next_live running _ ?_
    simp only [State.retryExpires, reading, waits, State.reach, State.setNow, State.setLoader, Loader.begin, busOpening]

/-! ## Events that cannot arise -/

theorem exec_held {c : Instr} (held : s.inReset = true) (reset : c ≠ .reset) (release : ∀ b, c ≠ .resetRelease b) :
    exec c s = .next s := by
  cases c
  case reset => exact absurd rfl reset
  case resetRelease strap => exact absurd rfl (release strap)
  all_goals exact congrArg Host.Outcome.next (State.live_held held _)

/-- A timer that is stopped does not expire (log 4). -/
theorem exec_expiry_stopped {c : Instr} (expiry : c ∈ expiryCommands) (other : ∀ a, c ≠ .silenceTimerExpiry a)
    (stopped : s.due c = none) : exec c s = .next s := by
  have idle : ∀ {f : State → State}, f s = s → (Host.Outcome.next (s.live f) : Host.Outcome State Fault Refusal) = .next s :=
    fun same => congrArg Host.Outcome.next (State.live_idle same)
  simp only [expiryCommands, List.mem_cons, List.not_mem_nil, or_false] at expiry
  obtain rfl | rfl | rfl | rfl | rfl | rfl | rfl | rfl | rfl | rfl | rfl | rfl := expiry
  case inr.inl => exact absurd rfl (other true)
  all_goals simp only [State.due] at stopped; refine idle ?_
  · unfold State.retryExpires
    split
    · next waits => rw [waits] at stopped; cases stopped
    · rfl
  · unfold State.frameTimerExpires
    rw [Option.map_eq_none_iff.1 stopped]
  · unfold State.lineSlotExpires
    split
    · next timer slot => simp only [timer, slot] at stopped; cases stopped
    · rfl
  · unfold State.lapLimitExpires
    rw [Option.map_eq_none_iff.1 stopped]
  · unfold State.rosterTimerExpires; rw [stopped]
  · unfold State.commitLimitExpires; rw [stopped]
  · unfold State.noOriginExpires; rw [stopped]
  · unfold State.firstFrameExpires; rw [stopped]
  · unfold State.frameMissingExpires; rw [stopped]
  · unfold State.holdOffExpires; rw [stopped]
  · unfold State.beaconExpires; rw [stopped]

theorem State.loseLock_of_not_locked (h : s.rx.lock ≠ .locked) (active : Bool) : s.loseLock active = s := by
  unfold State.loseLock
  split
  · rfl
  · rfl
  · next locked => exact absurd locked h

/-- Settles O4: a held reset stops every command but two, and each other event finds its timer stopped or no attempt. -/
theorem eventsThatCannotAriseChangeNothing : Obligations.EventsThatCannotAriseChangeNothing := by
  refine ⟨fun c s held => exec_held held, fun b s running => ?_, fun c s => exec_expiry_stopped, fun a s unlocked => ?_,
    fun s none => ?_⟩
  · exact congrArg Host.Outcome.next (if_neg (by rw [running]; nofun))
  · exact congrArg Host.Outcome.next (State.live_idle (State.loseLock_of_not_locked unlocked a))
  · have idle : ¬(s.loader.state = .reading ∧ s.loader.wait = .none) := by tauto
    exact ⟨fun phase => congrArg Host.Outcome.next (State.live_idle (State.attemptFails_idle idle phase)),
      fun image => congrArg Host.Outcome.next (State.live_idle (State.attemptSucceeds_idle idle image))⟩

/-! ## The configuration image -/

theorem framesPerSecond_eq (rate : Nat) : framesPerSecond rate = rateOf rate :=
  match rate with
  | 0 => rfl
  | 1 => rfl
  | 2 => rfl
  | 3 => rfl
  | 4 => rfl
  | 5 => rfl
  | 6 => rfl
  | _ + 7 => rfl

theorem numAt_eq (bs : List Byte) (i : Nat) : numAt bs i = 256 * (byteAt bs i).toNat + (byteAt bs (i + 1)).toNat := by
  have := (byteAt bs (i + 1)).isLt
  rw [numAt, halfAt, BitVec.toNat_append, ← Nat.shiftLeft_add_eq_or_of_lt this, Nat.shiftLeft_eq]
  omega

theorem imageSum_eq (bs : List Byte) : imageSum bs = (bs.map BitVec.toNat).sum % 256 := by
  have from_sum : ∀ (bs : List Byte) (a : Nat), a < 256 →
      bs.foldl (fun a b => (a + b.toNat) % 256) a = (a + (bs.map BitVec.toNat).sum) % 256 := by
    intro bs
    induction bs with
    | nil => exact fun a small => (Nat.mod_eq_of_lt small).symm
    | cons b rest ih =>
      intro a _
      rw [List.foldl_cons, ih _ (Nat.mod_lt _ (by decide)), List.map_cons, List.sum_cons]
      omega
  rw [imageSum, from_sum bs 0 (by decide), Nat.zero_add]

/-- The unused bytes of an image are those at 16 to 30 (Table 12-10). -/
theorem unused_zero_iff {bs : List Byte} (length : bs.length = 32) :
    (bs.drop 16).take 15 = List.replicate 15 0 ↔ ∀ i, 16 ≤ i → i < 31 → byteAt bs i = 0 := by
  have at_index : ∀ i, i < 15 → ((bs.drop 16).take 15)[i]? = some (byteAt bs (16 + i)) := fun i small => by
    rw [List.getElem?_take_of_lt small, List.getElem?_drop, byteAt, List.getD_eq_getElem?_getD,
      List.getElem?_eq_getElem (by omega), Option.getD_some]
  constructor
  · intro zeros i low high
    have here := at_index (i - 16) (by omega)
    rw [zeros, List.getElem?_replicate_of_lt (by omega), Nat.add_sub_cancel' low] at here
    exact (Option.some.inj here).symm
  · intro zeros
    refine List.ext_getElem? fun i => ?_
    by_cases small : i < 15
    · rw [at_index i small, List.getElem?_replicate_of_lt small, zeros _ (by omega) (by omega)]
    · rw [List.getElem?_eq_none (by simp; omega), List.getElem?_eq_none (by simp; omega)]

theorem weightModeOf_small {n : Nat} (h : n ≤ 1) :
    ∃ mode, weightModeOf n = some mode ∧ (mode = .top ↔ n = 0) := by
  match n, h with
  | 0, _ => exact ⟨.top, rfl, ⟨fun _ => rfl, fun _ => rfl⟩⟩
  | 1, _ => exact ⟨.second, rfl, ⟨nofun, nofun⟩⟩

theorem weightModeOf_le {n : Nat} {mode : WeightMode} (h : weightModeOf n = some mode) : n ≤ 1 := by
  unfold weightModeOf at h
  split at h
  · exact Nat.zero_le 1
  · exact Nat.le_refl 1
  · cases h

theorem byte_le_one_iff (b : Byte) : b.toNat ≤ 1 ↔ b = 0 ∨ b = 1 := by
  constructor
  · intro small
    obtain zero | one : b.toNat = 0 ∨ b.toNat = 1 := by omega
    · exact .inl (BitVec.eq_of_toNat_eq zero)
    · exact .inr (BitVec.eq_of_toNat_eq one)
  · rintro (rfl | rfl) <;> decide

theorem byte_flag_iff {b : Byte} (h : b = 0 ∨ b = 1) : b.getLsbD 0 = true ↔ b = 1 := by
  obtain rfl | rfl := h <;> decide

theorem Format.passes_iff (f : Format) : f.passes = true ↔ DenseEnough f := by
  unfold Format.passes DenseEnough cellBudget
  rw [decide_eq_true_iff, framesPerSecond_eq]
  rfl

/-- The capacity check divides the eligible images into eligible and too dense (R180). -/
theorem ConfigCopy.checked_eligible (c : ConfigCopy) :
    (c.checked.eligible = true ↔ c.eligible = true ∧ DenseEnough c.format) ∧
      (c.checked.tooDense = true ↔ c.eligible = true ∧ ¬DenseEnough c.format) := by
  constructor
  · simp only [ConfigCopy.checked, Bool.and_eq_true, Format.passes_iff]
  · simp only [ConfigCopy.checked, Bool.and_eq_true, Format.passes_iff, Bool.not_eq_true', ← Bool.not_eq_true]

/-- A valid image gives the configuration copy of R179 to R181. -/
theorem readImage_of_valid {image : List Byte} (length : image.length = 32) (h : ValidImage image) :
    ∃ c, readImage image = some c ∧ ConfigGiven image c.checked := by
  obtain ⟨m0, m1, version, id, id', flag, spans, spans', height, height', rate, mode, cover, lead, lead', threshold,
    unused, sum⟩ := h
  obtain ⟨weight, named, top⟩ := weightModeOf_small mode
  unfold readImage
  rw [named]
  dsimp only
  rw [if_pos ⟨m0, m1, version, ⟨id, id'⟩, (byte_le_one_iff _).2 flag, ⟨spans, spans'⟩,
    by rw [numAt_eq]; exact ⟨height, height'⟩, rate, cover, ⟨lead, lead'⟩, threshold, (unused_zero_iff length).2 unused,
    by rw [imageSum_eq]; exact sum⟩]
  refine ⟨_, rfl, rfl, ?_, ?_, ?_, ?_, rfl, rfl, rfl, rfl⟩
  · rw [← numAt_eq]
    rfl
  · rw [← byte_flag_iff flag]
    exact (ConfigCopy.checked_eligible _).1
  · rw [← byte_flag_iff flag]
    exact (ConfigCopy.checked_eligible _).2
  · refine top.trans ⟨fun zero => BitVec.eq_of_toNat_eq zero, fun zero => ?_⟩
    rw [zero]
    rfl

/-- An image that is read is valid (R179). -/
theorem valid_of_readImage {image : List Byte} (length : image.length = 32) {c : ConfigCopy}
    (h : readImage image = some c) : ValidImage image := by
  unfold readImage at h
  split at h
  · cases h
  · next mode named =>
    split at h
    · next fields =>
      obtain ⟨m0, m1, version, ⟨id, id'⟩, flag, ⟨spans, spans'⟩, ⟨height, height'⟩, rate, cover, ⟨lead, lead'⟩, threshold,
        unused, sum⟩ := fields
      rw [numAt_eq] at height height'
      rw [imageSum_eq] at sum
      exact ⟨m0, m1, version, id, id', (byte_le_one_iff _).1 flag, spans, spans', height, height', rate,
        weightModeOf_le named, cover, lead, lead', threshold, (unused_zero_iff length).1 unused, sum⟩
    · cases h

/-! ## An attempt that succeeds -/

theorem busData_eq {n : Nat} {image : List Byte} (length : image.length = n + 1) :
    busData image =
      (image.take n).map (fun b => .receive b true) ++ (image.drop n).map (fun b => .receive b false) := by
  induction n generalizing image with
  | zero =>
    obtain ⟨b, rfl⟩ := List.length_eq_one_iff.1 length
    rfl
  | succ n ih =>
    match image, length with
    | b :: b' :: rest, length => exact congrArg (_ :: ·) (ih (Nat.succ.inj length))

theorem busSucceeded_eq {image : List Byte} (length : image.length = 32) : busSucceeded image = wholeTransfer image := by
  unfold busSucceeded wholeTransfer
  rw [busData_eq (n := 31) length, ← List.append_assoc]
  rfl

theorem State.tryRoll_stays (h : ¬(s.ring.state = .listen ∧ s.rx.lock = .locked ∧ s.checker.qualified = true)) :
    s.tryRoll = s :=
  if_neg h

/-- A station in LISTEN with a qualified link enters ROLL (R133, R134). -/
theorem State.tryRoll_enters (listen : s.ring.state = .listen) (locked : s.rx.lock = .locked)
    (qualified : s.checker.qualified = true) : s.EntersRoll s.tryRoll := by
  rw [State.tryRoll, if_pos ⟨listen, locked, qualified⟩]
  exact s.enterRoll_enters

theorem State.attemptSucceeds_valid (h : s.loader.state = .reading ∧ s.loader.wait = none) {image : List Byte}
    {c : ConfigCopy} (read : readImage image = some c) :
    s.attemptSucceeds image =
      (s.setLoader { s.loader with state := .done, buffer := image, bus := busSucceeded image }).darkToListen
        c.checked := by
  unfold State.attemptSucceeds
  rw [if_pos (s.loader.inAttempt_iff.2 h), read]

theorem State.attemptSucceeds_invalid (h : s.loader.state = .reading ∧ s.loader.wait = none) {image : List Byte}
    (read : readImage image = none) :
    s.attemptSucceeds image =
      (s.setLoader { s.loader with state := .invalid, buffer := image, bus := busSucceeded image }).darkToRelay
        .configInvalid := by
  unfold State.attemptSucceeds
  rw [if_pos (s.loader.inAttempt_iff.2 h), read]

/-- Settles O6: the image is read exactly where it is valid, and a read one takes the station to LISTEN or ROLL. -/
theorem theImageDecidesHowTheStationLeavesDark : Obligations.TheImageDecidesHowTheStationLeavesDark := by
  intro image s length running reading idle
  refine ⟨fun valid => ?_, fun invalid => next_live running _ ?_⟩
  · obtain ⟨c, read, given⟩ := readImage_of_valid length valid
    have leaves := s.attemptSucceeds_valid ⟨reading, idle⟩ read
    rw [busSucceeded_eq length] at leaves
    refine ⟨_, _, given, rfl, fun unready => ?_, fun locked qualified => ?_⟩
    · exact next_live running _ (leaves.trans (State.tryRoll_stays fun ⟨_, link⟩ => unready link))
    · exact ⟨_, next_live running _ leaves, State.tryRoll_enters rfl locked qualified⟩
  · have read : readImage image = none :=
      Option.eq_none_iff_forall_not_mem.2 fun c read => invalid (valid_of_readImage length read)
    rw [s.attemptSucceeds_invalid ⟨reading, idle⟩ read, State.darkToRelay_eq, busSucceeded_eq length]
    rfl

end

end Sys2Proof.Machine
end

section
/-! SUPPORT. The two-wire bus of an attempt (R177): its lines as a path of levels. -/
namespace Sys2Proof.Machine

/-! ## Paths of levels -/

/-- The lines go from the levels `a` through `ls` to `b`, never both at once, with these changes of CFG_SDA while CFG_SCL
is high. -/
structure BusPath (a : BusLines) (ls : List BusLines) (b : BusLines) (moves : List Bool) : Prop where
  ends : ls.getLast?.getD a = b
  apart : oneAtATime (a :: ls) = true
  moves : highMoves (a :: ls) = moves

theorem BusPath.nil (a : BusLines) : BusPath a [] a [] := ⟨rfl, rfl, rfl⟩

theorem BusPath.append {a b c : BusLines} {ls ms : List BusLines} {m n : List Bool} (first : BusPath a ls b m)
    (second : BusPath b ms c n) : BusPath a (ls ++ ms) c (m ++ n) := by
  induction ls generalizing a m with
  | nil =>
    obtain ⟨rfl, _, rfl⟩ := first
    exact second
  | cons x xs ih =>
    obtain ⟨ends, apart, rfl⟩ := first
    simp only [oneAtATime, Bool.and_eq_true] at apart
    have rest : BusPath x xs b (highMoves (x :: xs)) := by
      refine ⟨?_, apart.2, rfl⟩
      rw [← ends, List.getLast?_cons]
      rfl
    obtain ⟨ends', apart', moves'⟩ := ih rest
    refine ⟨?_, ?_, ?_⟩
    · rw [List.cons_append, List.getLast?_cons]
      exact ends'
    · simp only [List.cons_append, oneAtATime, Bool.and_eq_true]
      exact ⟨apart.1, apart'⟩
    · simp only [List.cons_append, highMoves, List.append_assoc]
      rw [moves']

/-! ## Pulses -/

theorem busPulse_path (x sda : Bool) : BusPath ⟨false, x⟩ (busPulse sda) ⟨false, sda⟩ [] := by
  cases x <;> cases sda <;> exact ⟨rfl, rfl, rfl⟩

/-- CFG_SDA does not change in pulses while CFG_SCL is high. -/
theorem pulses_path (levels : List Bool) (x : Bool) :
    ∃ y, BusPath ⟨false, x⟩ (levels.flatMap busPulse) ⟨false, y⟩ [] := by
  induction levels generalizing x with
  | nil => exact ⟨x, .nil _⟩
  | cons sda rest ih =>
    obtain ⟨y, path⟩ := ih sda
    exact ⟨y, (busPulse_path x sda).append path⟩

/-- Before a low clock nothing is sampled, and no level that stands there is a change under a high clock. -/
theorem pulses_after_low (levels : List Bool) (x : Bool) :
    sampledAt (⟨false, x⟩ :: levels.flatMap busPulse) = sampledAt (levels.flatMap busPulse) ∧
      highMoves (⟨false, x⟩ :: levels.flatMap busPulse) = highMoves (levels.flatMap busPulse) := by
  cases levels <;> exact ⟨rfl, rfl⟩

theorem pulses_moves (levels : List Bool) : highMoves (levels.flatMap busPulse) = [] := by
  obtain ⟨_, path⟩ := pulses_path levels false
  exact (pulses_after_low levels false).2.symm.trans path.moves

/-- Each pulse shows its level at its rise. -/
theorem pulses_samples (levels : List Bool) : sampledAt (levels.flatMap busPulse) = levels := by
  induction levels with
  | nil => rfl
  | cons sda rest ih =>
    refine congrArg (sda :: ·) ?_
    exact (pulses_after_low rest sda).1.trans ih

theorem busByte_pulses (b : Byte) (acked : Bool) : busByte b acked = (byteBits b ++ [!acked]).flatMap busPulse := by
  rw [List.flatMap_append, List.flatMap_singleton]
  rfl

/-! ## Attempts -/

/-- The actions between the opening of an attempt and its stop. -/
def BusAction.inTransfer : BusAction → Bool
  | .repeatedStart => true
  | .send _ _ => true
  | .receive _ _ => true
  | .ninePulses => false
  | .start => false
  | .stop => false

theorem BusAction.inTransfer_path {a : BusAction} (h : a.inTransfer = true) (x : Bool) :
    ∃ y, BusPath ⟨false, x⟩ a.lines ⟨false, y⟩ (conditionsOf [a]) := by
  cases a with
  | repeatedStart => cases x <;> exact ⟨false, rfl, rfl, rfl⟩
  | send b acked =>
    rw [show (BusAction.send b acked).lines = _ from busByte_pulses b acked]
    exact pulses_path _ x
  | receive b acked =>
    rw [show (BusAction.receive b acked).lines = _ from busByte_pulses b acked]
    exact pulses_path _ x
  | ninePulses => cases h
  | start => cases h
  | stop => cases h

theorem transfer_path (bus : List BusAction) (h : bus.all BusAction.inTransfer = true) (x : Bool) :
    ∃ y, BusPath ⟨false, x⟩ (bus.flatMap BusAction.lines) ⟨false, y⟩ (conditionsOf bus) := by
  induction bus generalizing x with
  | nil => exact ⟨x, .nil _⟩
  | cons a rest ih =>
    rw [List.all_cons, Bool.and_eq_true] at h
    obtain ⟨y, first⟩ := a.inTransfer_path h.1 x
    obtain ⟨z, others⟩ := ih h.2 y
    refine ⟨z, ?_⟩
    rw [List.flatMap_cons, show conditionsOf (a :: rest) = conditionsOf [a] ++ conditionsOf rest from
      List.flatMap_append (xs := [a])]
    exact first.append others

theorem opening_path :
    BusPath ⟨true, true⟩ (busOpening.flatMap BusAction.lines) ⟨false, false⟩ (conditionsOf busOpening) :=
  ⟨rfl, rfl, rfl⟩

theorem stop_path (x : Bool) : BusPath ⟨false, x⟩ BusAction.stop.lines ⟨true, true⟩ (conditionsOf [.stop]) := by
  cases x <;> exact ⟨rfl, rfl, rfl⟩

theorem attempt_path {bus : List BusAction} (h : bus.all BusAction.inTransfer = true) :
    BusPath ⟨true, true⟩ ((busOpening ++ bus ++ [BusAction.stop]).flatMap BusAction.lines) ⟨true, true⟩
      (conditionsOf (busOpening ++ bus ++ [BusAction.stop])) := by
  obtain ⟨y, path⟩ := transfer_path bus h false
  unfold conditionsOf
  rw [List.flatMap_append, List.flatMap_append, List.flatMap_append, List.flatMap_append, List.flatMap_singleton]
  exact (opening_path.append path).append (stop_path y)

theorem failedTransfer_eq (phase : AttemptPhase) :
    ∃ bus, bus.all BusAction.inTransfer = true ∧ failedTransfer phase = busOpening ++ bus ++ [BusAction.stop] := by
  cases phase
  · exact ⟨[.send 0xA0 false], rfl, rfl⟩
  · exact ⟨[.send 0xA0 true, .send 0 false], rfl, rfl⟩
  · exact ⟨[.send 0xA0 true, .send 0 true, .repeatedStart, .send 0xA1 false], rfl, rfl⟩

theorem wholeTransfer_eq (image : List Byte) :
    ∃ bus, bus.all BusAction.inTransfer = true ∧ wholeTransfer image = busOpening ++ bus ++ [.stop] := by
  refine ⟨[.send 0xA0 true, .send 0 true, .repeatedStart, .send 0xA1 true] ++
    (image.take 31).map (fun b => .receive b true) ++ (image.drop 31).map (fun b => .receive b false), ?_, ?_⟩
  · rw [List.all_append, List.all_append, List.all_map, List.all_map, Bool.and_eq_true, Bool.and_eq_true]
    exact ⟨⟨rfl, List.all_eq_true.2 fun _ _ => rfl⟩, List.all_eq_true.2 fun _ _ => rfl⟩
  · simp [wholeTransfer, busOpening]

/-- Settles O7: a byte is nine pulses, and an attempt a path of levels from the idle bus whose changes of CFG_SDA under a
high CFG_SCL are its conditions. -/
theorem busLinesFollowTheConditions : Obligations.BusLinesFollowTheConditions := by
  refine ⟨fun a b acked byte => ?_, ⟨pulses_samples _, pulses_moves _⟩, ⟨rfl, rfl, rfl⟩, fun l attempt => ?_⟩
  · have lines : a.lines = (byteBits b ++ [!acked]).flatMap busPulse := by
      obtain rfl | rfl := byte <;> exact busByte_pulses b acked
    rw [lines]
    exact ⟨pulses_samples _, pulses_moves _⟩
  · obtain ⟨c, path⟩ : ∃ c, BusPath ⟨true, true⟩ (l.bus.flatMap BusAction.lines) c (conditionsOf l.bus) := by
      obtain begun | ⟨phase, failed⟩ | ⟨image, _, whole⟩ := attempt
      · rw [begun]
        exact ⟨_, opening_path⟩
      · obtain ⟨bus, between, same⟩ := failedTransfer_eq phase
        rw [failed, same]
        exact ⟨⟨true, true⟩, attempt_path between⟩
      · obtain ⟨bus, between, same⟩ := wholeTransfer_eq image
        rw [whole, same]
        exact ⟨⟨true, true⟩, attempt_path between⟩
    exact ⟨path.apart, path.moves⟩

end Sys2Proof.Machine
end

section
/-! SUPPORT. The receiver and the link checker (chapters 6.2 and 7): lock, cell errors, HUNT and SYNCED, and what their
notices bring. -/
namespace Sys2Proof.Machine

section
variable {s t b : State}

/-! ## The receiver's lock -/

theorem State.gainLock_aligning (aligning : s.rx.lock = .aligning) :
    s.gainLock = State.tryRoll { s with rx := { lock := .locked, silence := some (s.now + 200) } } :=
  if_pos aligning

/-- Settles O8: each event acts in one lock state alone. -/
theorem lockStateFollowsTheLink : Obligations.LockStateFollowsTheLink := by
  intro s running
  refine ⟨fun none => ?_, fun other => ?_, fun aligning => ?_, fun other => ⟨?_, ?_⟩, fun aligning unready => ?_,
    fun aligning listen qualified => ?_⟩
  · exact next_live running _ (if_pos none)
  · exact next_live running _ (if_neg other)
  · exact next_live running _ (if_pos aligning)
  · exact next_live running _ (if_neg other)
  · exact next_live running _ (if_neg other)
  · refine next_live running _ ((State.gainLock_aligning aligning).trans (State.tryRoll_stays ?_))
    exact fun ⟨listen, _, qualified⟩ => unready ⟨listen, qualified⟩
  · exact ⟨_, next_live running _ (State.gainLock_aligning aligning), State.tryRoll_enters listen rfl qualified⟩

/-! ## Notices -/

theorem State.returnToListen_returns (s : State) : s.ReturnsToListen s.returnToListen := rfl

theorem State.faultInHoldOff_fault (s : State) : s.HoldOffFault s.faultInHoldOff := rfl

/-- The lock lost notice by ring state (R101, R135, R150, R157). -/
theorem State.lockLostNotice_acts (b : State) :
    (b.ring.state = .dark ∨ b.ring.state = .listen → b.lockLostNotice = b) ∧
      (b.ring.state = .roll → b.ReturnsToListen b.lockLostNotice) ∧
      (b.ring.state = .run → b.HaltRaised .lockLost b.epoch b.lockLostNotice) ∧
      (b.ring.state = .halt → b.HoldOffFault b.lockLostNotice) ∧
      (b.ring.state = .relay → b.lockLostNotice = { b with tx := { b.tx with forward := [] } }) := by
  unfold State.lockLostNotice
  refine ⟨?_, fun roll => ?_, fun run => ?_, fun halt => ?_, fun relay => ?_⟩
  · rintro (dark | listen)
    · rw [dark]
    · rw [listen]
  · rw [roll]
    exact b.returnToListen_returns
  · rw [run]
    exact b.raiseHalt_raised _ _
  · rw [halt]
    exact b.faultInHoldOff_fault
  · rw [relay]
    rfl

/-- The sync lost notice by ring state (R127, R135, R150, R157). -/
theorem State.syncLostNotice_acts (b : State) :
    (b.ring.state = .dark ∨ b.ring.state = .listen ∨ b.ring.state = .relay → b.syncLostNotice = b) ∧
      (b.ring.state = .roll → b.ReturnsToListen b.syncLostNotice) ∧
      (b.ring.state = .halt → b.HoldOffFault b.syncLostNotice) ∧
      (b.ring.state = .run → b.HaltRaised .degraded b.epoch b.syncLostNotice) := by
  unfold State.syncLostNotice
  refine ⟨?_, fun roll => ?_, fun halt => ?_, fun run => ?_⟩
  · rintro (dark | listen | relay)
    · rw [dark]
    · rw [listen]
    · rw [relay]
  · rw [roll]
    exact b.returnToListen_returns
  · rw [halt]
    exact b.faultInHoldOff_fault
  · rw [run]
    exact b.raiseHalt_raised _ _

/-- The station that has lost lock, before the notice acts (R99, R124). -/
def State.unlocked (s : State) (d : Nat) (active : Bool) : State :=
  { s with
    now := max s.now d
    rx := { lock := if active then .aligning else .noSignal, silence := none }
    checker := s.checker.toHunt }

theorem State.loseLock_locked (locked : s.rx.lock = .locked) {d : Nat} (silence : s.rx.silence = some d)
    (active : Bool) :
    s.loseLock active = (s.unlocked d active).lockLostNotice := by
  unfold State.loseLock
  rw [locked, silence]
  rfl

/-- Settles O9: the receiver loses lock, the checker hunts, and the notice acts by ring state. -/
theorem lossOfLockActsByRingState : Obligations.LossOfLockActsByRingState := by
  intro active s d ⟨running, locked⟩ silence
  exact ⟨s.unlocked d active, _, next_live running _ (State.loseLock_locked locked silence active), rfl,
    (s.unlocked d active).lockLostNotice_acts⟩

/-! ## The degrade test -/

theorem State.degraded_iff (s before : State) :
    s.degraded before = true ↔
      s.ring.state = .run ∧ s.errorSum ≠ before.errorSum ∧
        ∃ c, s.ring.config = some c ∧ c.threshold ≤ s.errorSum := by
  unfold State.degraded
  simp only [Bool.and_eq_true, beq_iff_eq, bne_iff_ne, and_assoc]
  refine and_congr_right fun _ => and_congr_right fun _ => ?_
  cases s.ring.config with
  | none => simp
  | some c => simp

theorem State.degradeTest_stays {before : State} (h : ¬s.degraded before = true) : s.degradeTest before = s := if_neg h

theorem State.degradeTest_raises {before : State} (h : s.degraded before = true) :
    s.HaltRaised .degraded s.epoch (s.degradeTest before) := by
  rw [State.degradeTest, if_pos h]
  exact s.raiseHalt_raised _ _

/-! ## Cell errors -/

theorem satInc_byte_toNat (c : Byte) : (satInc c).toNat = if c.toNat < 255 then c.toNat + 1 else c.toNat := by
  have := c.isLt
  rw [satInc_toNat]
  split <;> omega

/-- The degrade test after a cell error, in the numbers before it (R126). -/
theorem State.degraded_cellError (u : State) :
    (u.setFilter { u.filter with cellErrors := satInc u.filter.cellErrors }).degraded u = true ↔
      u.ring.state = .run ∧ u.filter.cellErrors.toNat < 255 ∧
        ∃ c, u.ring.config = some c ∧ c.threshold ≤ u.checker.frameErrors.toNat + u.filter.cellErrors.toNat + 1 := by
  have sum : (u.setFilter { u.filter with cellErrors := satInc u.filter.cellErrors }).errorSum =
      u.checker.frameErrors.toNat + (satInc u.filter.cellErrors).toNat := rfl
  rw [State.degraded_iff, sum, satInc_byte_toNat]
  refine and_congr_right fun _ => ?_
  split
  · next room =>
    refine and_congr ⟨fun _ => room, fun _ => ?_⟩ Iff.rfl
    unfold State.errorSum
    omega
  · next full => exact ⟨fun ⟨changed, _⟩ => absurd rfl changed, fun ⟨room, _⟩ => absurd room full⟩

theorem State.countCellError_counts (u : State) :
    ((u.ring.state = .run → u.filter.cellErrors.toNat < 255 → ∀ c, u.ring.config = some c →
        u.checker.frameErrors.toNat + u.filter.cellErrors.toNat + 1 < c.threshold) →
      u.countCellError = u.setFilter { u.filter with cellErrors := satInc u.filter.cellErrors }) ∧
    (u.ring.state = .run → u.filter.cellErrors.toNat < 255 → ∀ c, u.ring.config = some c →
        c.threshold ≤ u.checker.frameErrors.toNat + u.filter.cellErrors.toNat + 1 →
      State.HaltRaised (u.setFilter { u.filter with cellErrors := satInc u.filter.cellErrors }) .degraded u.epoch
        u.countCellError) := by
  refine ⟨fun below => State.degradeTest_stays fun degraded => ?_, fun run room c held reached => ?_⟩
  · obtain ⟨run, room, c, held, reached⟩ := u.degraded_cellError.1 degraded
    exact absurd (below run room c held) (Nat.not_lt.2 reached)
  · exact State.degradeTest_raises (u.degraded_cellError.2 ⟨run, room, c, held, reached⟩)

/-- Settles O10: a cell error counts in LOCKED alone, and the degrade test compares the sum it brings. -/
theorem cellErrorsAreCountedAndTested : Obligations.CellErrorsAreCountedAndTested := by
  intro kind s running
  refine ⟨fun unlocked => congrArg Host.Outcome.next (State.live_idle ?_), fun locked => ?_⟩
  · unfold State.cellFails
    split
    · exact absurd ‹s.rx.lock = .locked› unlocked
    · exact absurd ‹s.rx.lock = .locked› unlocked
    · rfl
    · rfl
  · cases kind with
    | boundaryMissed =>
      refine ⟨_, s.countCellError, next_live running _ ?_, rfl, s.countCellError_counts⟩
      simp only [State.cellFails, locked]
    | crcFailed =>
      refine ⟨_, s.heard.countCellError, next_live running _ ?_, rfl, s.heard.countCellError_counts⟩
      simp only [State.cellFails, locked]
      rfl

/-! ## HUNT -/

theorem State.probeArrives_hunt (hunt : s.checker.sync = .hunt) (cell : CellBytes) :
    s.probeArrives cell =
      s.setChecker (s.checker.hunting (probeStart cell) (differing cell).isEmpty) := by
  unfold State.probeArrives
  rw [hunt, byteMismatches_differing, List.isEmpty_map]

/-- Settles O11: the three outcomes of a probe in HUNT. -/
theorem huntFollowsTheProbePositions : Obligations.HuntFollowsTheProbePositions := by
  intro cell s hears hunt
  have arrives : ∀ c, s.checker.hunting (probeStart cell) (differing cell).isEmpty = c →
      exec (.probe cell) s = .next { s.heard with checker := c } := fun c same =>
    next_arrive hears _ ((State.probeArrives_hunt (s := s.heard) hunt cell).trans (congrArg s.heard.setChecker same))
  have clean : probeStart cell ≤ 126 → differing cell = [] →
      ¬(126 < probeStart cell ∨ (differing cell).isEmpty = false) := fun inRange none => by
    rw [none]
    exact not_or.2 ⟨Nat.not_lt.2 inRange, nofun⟩
  refine ⟨fun inRange none next => arrives _ ?_, fun inRange none other => arrives _ ?_, fun bad => arrives _ ?_⟩
  · exact (if_neg (clean inRange none)).trans (if_pos next)
  · exact (if_neg (clean inRange none)).trans (if_neg other)
  · refine if_pos (bad.imp_right fun some => ?_)
    rw [List.isEmpty_eq_false_iff]
    exact some

/-! ## SYNCED -/

/-- A probe in SYNCED: the fourth bad one, one that qualifies the link, any other (R122, R123, R126). -/
theorem State.probeArrives_synced {q : Nat} (synced : s.checker.sync = .synced) (placed : s.checker.previous = some q)
    {cell : CellBytes} {k : Checker} (counted : k = s.checker.after q cell s.merge.lastTaken) :
    s.probeArrives cell =
      if k.bad = 4 then (s.setChecker k).syncLost s
      else if k.qualified = true ∧ s.checker.qualified = false then (s.setChecker k).tryRoll
      else (s.setChecker k).degradeTest s := by
  unfold State.probeArrives
  rw [synced, placed, counted, ← Checker.checked_after]
  rfl

/-- The degrade test after a probe, in the per-frame errors that its count leaves (R121, R126). -/
theorem State.degraded_setChecker (s : State) (k : Checker) :
    (s.setChecker k).degraded s = true ↔
      s.ring.state = .run ∧ k.frameErrors ≠ s.checker.frameErrors ∧
        ∃ c, s.ring.config = some c ∧ c.threshold ≤ k.frameErrors.toNat + s.filter.cellErrors.toNat := by
  rw [State.degraded_iff]
  refine and_congr_right fun _ => and_congr (not_congr ?_) Iff.rfl
  refine ⟨fun same => BitVec.eq_of_toNat_eq (Nat.add_right_cancel same), fun same => ?_⟩
  rw [State.errorSum, State.setChecker_checker, same]
  rfl

theorem Checker.after_clean {c : Checker} {q : Nat} {cell : CellBytes} (frame : Option Half) (none : errorsOf q cell = 0) :
    (c.after q cell frame).frameErrors = c.frameErrors ∧ (c.after q cell frame).bad = 0 := by
  unfold Checker.after
  simp only [none, satAdd_zero, if_true, and_self]

/-- Only a clean probe sets the qualified flag (R123). -/
theorem Checker.after_qualifies {c : Checker} {q : Nat} {cell : CellBytes} {frame : Option Half}
    (now : (c.after q cell frame).qualified = true) (before : c.qualified = false) : errorsOf q cell = 0 := by
  simp only [Checker.after, before, Bool.false_or, Bool.and_eq_true, decide_eq_true_eq] at now
  exact now.1

theorem State.EntersRoll.kept (h : b.EntersRoll t) : t.ring.state = .roll ∧ t.checker = b.checker := by
  obtain ⟨eligible, other⟩ := h
  cases flag : b.eligible with
  | true =>
    obtain ⟨_, rfl, _⟩ := eligible flag
    exact ⟨rfl, rfl⟩
  | false =>
    rw [other flag]
    exact ⟨rfl, rfl⟩

/-- Settles O12: a probe that is none of the three is counted alone; the 64th clean one in a row leads to ROLL. -/
theorem syncedProbesAreCounted : Obligations.SyncedProbesAreCounted := by
  refine ⟨fun cell s q k hears synced placed counted short steady below => next_arrive hears _ ?_,
    fun cell s q hears listen synced placed clean unqualified none => ?_⟩
  · rw [State.probeArrives_synced (s := s.heard) synced placed counted, if_neg short]
    split
    · next qualifies => exact State.tryRoll_stays fun ⟨listen, _⟩ => steady ⟨listen, qualifies⟩
    · refine State.degradeTest_stays fun degraded => ?_
      obtain ⟨run, changed, c, held, reached⟩ := (s.heard.degraded_setChecker k).1 degraded
      refine absurd (below run (fun none => changed ?_) c held) (Nat.not_lt.2 reached)
      rw [counted]
      exact (Checker.after_clean _ none).1
  · have qualified : (s.checker.after q cell s.merge.lastTaken).qualified = true := by
      simp only [Checker.after, none, clean, Nat.reduceAdd, le_refl, decide_true, Bool.and_self, Bool.or_true]
    have short : (s.checker.after q cell s.merge.lastTaken).bad ≠ 4 := by
      rw [(Checker.after_clean _ none).2]
      nofun
    have arrives := (State.probeArrives_synced (s := s.heard) synced placed (cell := cell) rfl).trans
      ((if_neg short).trans (if_pos ⟨qualified, unqualified⟩))
    have enters := State.tryRoll_enters (s := s.heard.setChecker (s.checker.after q cell s.merge.lastTaken)) listen hears.2
      qualified
    obtain ⟨roll, same⟩ := enters.kept
    exact ⟨_, next_arrive hears _ arrives, roll, (congrArg Checker.qualified same).trans qualified, enters⟩

/-- Settles O13: a probe that changes the error sum does not qualify the link, so that the degrade test is made. -/
theorem errorSumAtTheThresholdHalts : Obligations.ErrorSumAtTheThresholdHalts := by
  intro cell s q k c hears run synced placed counted short changed held reached
  have unqualified : ¬(k.qualified = true ∧ s.checker.qualified = false) := fun ⟨now, before⟩ => changed <| by
    rw [counted] at now ⊢
    exact (Checker.after_clean _ (Checker.after_qualifies now before)).1
  have arrives := (State.probeArrives_synced (s := s.heard) synced placed counted).trans
    ((if_neg short).trans (if_neg unqualified))
  exact ⟨_, next_arrive hears _ arrives,
    State.degradeTest_raises ((s.heard.degraded_setChecker k).2 ⟨run, changed, c, held, reached⟩)⟩

/-! ## Loss of sync -/

/-- What a trailer shows and a halt entry does, the free choices used do not matter to. -/
theorem State.TrailerShows.of_setFreeCount {n : Nat} {u : Tap} {role : Role} {last : Option HaltRecord} {tr : Trailer}
    (h : (s.setFreeCount n).TrailerShows u role last tr) : s.TrailerShows u role last tr :=
  ⟨h.frameCounts, h.sourceCounts, h.drops, h.layers, h.cumulative, h.originCounts, h.records⟩

theorem State.HaltEntered.of_setFreeCount {n : Nat} {h : HaltRecord} {cell : CellBytes}
    (e : (s.setFreeCount n).HaltEntered h cell t) : s.HaltEntered h cell t := by
  refine ⟨e.ring, e.pins, e.queues, e.source, e.cues, e.merge, e.origin, e.checker, e.filter, e.bulletin, e.tapShut,
    fun o opened => ?_, e.kept⟩
  obtain ⟨tr, role, either, shows', tap⟩ := e.tapOpen o opened
  exact ⟨tr, role, either, shows'.of_setFreeCount, tap⟩

theorem State.HaltRaised.of_setFreeCount {n : Nat} {cause : HaltCause} {epoch : Byte}
    (h : (s.setFreeCount n).HaltRaised cause epoch t) : s.HaltRaised cause epoch t := by
  obtain ⟨record, named, reporter, under, entered⟩ := h
  exact ⟨record, named, reporter, under, entered.of_setFreeCount⟩

theorem State.syncLost_alone {before : State} (h : ¬s.degraded before = true) :
    s.syncLost before = State.syncLostNotice { s with checker := s.checker.toHunt } :=
  if_neg h

/-- Sync lost with the error sum at the threshold: the halt is raised in either order of the two notices (log 11). -/
theorem State.syncLost_degraded {before : State} (h : s.degraded before = true) :
    State.HaltRaised { s with checker := s.checker.toHunt } .degraded s.epoch (s.syncLost before) ∨
      ∃ u, s.HaltRaised .degraded s.epoch u ∧
        State.HoldOffFault { u with checker := u.checker.toHunt } (s.syncLost before) := by
  have run : s.ring.state = .run := State.degraded_run h
  rw [State.syncLost, if_pos h]
  dsimp only
  cases choice : s.freeChoice.1 with
  | false =>
    rw [if_neg Bool.false_ne_true]
    refine .inl (State.HaltRaised.of_setFreeCount (n := s.freeCount + 1) ?_)
    exact (State.syncLostNotice_acts
      (State.setFreeCount { s with checker := s.checker.toHunt } (s.freeCount + 1))).2.2.2 run
  | true =>
    rw [if_pos rfl]
    have raised := (s.setFreeCount (s.freeCount + 1)).raiseHalt_raised .degraded s.epoch
    have halted := (s.setFreeCount (s.freeCount + 1)).raiseHalt_ring_state .degraded s.epoch
    refine .inr ⟨_, raised.of_setFreeCount, ?_⟩
    rw [show s.freeChoice.2.raiseInRun .degraded = (s.setFreeCount (s.freeCount + 1)).raiseHalt .degraded s.epoch from rfl]
    generalize (s.setFreeCount (s.freeCount + 1)).raiseHalt .degraded s.epoch = u at halted
    rw [State.syncLostNotice_of_halt (s := u.setChecker u.checker.loseSync) halted]
    exact State.faultInHoldOff_fault _

/-- Settles O14: the notice acts by ring state, and in RUN the two notices may come in either order. -/
theorem fourthBadProbeLosesSync : Obligations.FourthBadProbeLosesSync := by
  intro cell s q k hears synced placed counted fourth
  have arrives := State.probeArrives_synced (s := s.heard) synced placed counted
  rw [if_pos fourth] at arrives
  obtain ⟨quiet, roll, halt, run⟩ := State.syncLostNotice_acts { s.heard with checker := k.toHunt }
  have alone : ¬(s.heard.setChecker k).degraded s.heard = true →
      (s.heard.setChecker k).syncLost s.heard = State.syncLostNotice { s.heard with checker := k.toHunt } :=
    State.syncLost_alone
  have outside : s.ring.state ≠ .run → ¬(s.heard.setChecker k).degraded s.heard = true := fun other degraded =>
    other (State.degraded_run (s := s.heard.setChecker k) degraded)
  refine ⟨_, _, next_arrive hears _ arrives, rfl, fun state => ?_, fun state => ?_, fun state => ?_, fun state below => ?_,
    fun state => ?_⟩
  · rw [alone (outside (by rcases state with h | h | h <;> rw [h] <;> nofun))]
    exact quiet state
  · rw [alone (outside (by rw [state]; nofun))]
    exact roll state
  · rw [alone (outside (by rw [state]; nofun))]
    exact halt state
  · rw [alone fun degraded => ?_]
    · exact run state
    · obtain ⟨_, _, c, held, reached⟩ := (s.heard.degraded_setChecker k).1 degraded
      exact absurd (below c held) (Nat.not_lt.2 reached)
  · by_cases degraded : (s.heard.setChecker k).degraded s.heard = true
    · exact State.syncLost_degraded degraded
    · rw [alone degraded]
      exact .inl (run state)

end

end Sys2Proof.Machine
end

section
/-! SUPPORT. The cell filter (R100 to R105) and the cells of the ring controller (chapters 8 and 9): ROSTER, COMMIT and
HALT. -/
namespace Sys2Proof.Machine

section
variable {s t u : State}

/-! ## The cell filter -/

theorem State.arrive_unlocked (h : s.rx.lock ≠ .locked) (f : State → State) : s.arrive f = s :=
  State.live_idle (if_neg h)

/-- Outside ROLL and RUN a good cell is discarded, or forwarded in RELAY (R103). -/
structure FiltersAway (cell : CellBytes) (f : State → State) : Prop where
  discards : ∀ u : State, u.ring.state = .dark ∨ u.ring.state = .listen ∨ u.ring.state = .halt → f u = u
  forwards : ∀ u : State, u.ring.state = .relay → f u = u.forward cell

theorem rosterArrives_filtersAway (cell : CellBytes) : FiltersAway cell fun u => u.rosterArrives cell := by
  refine ⟨fun u state => ?_, fun u relay => ?_⟩ <;> unfold State.rosterArrives
  · obtain dark | listen | halt := state
    · rw [dark]
    · rw [listen]
    · rw [halt]
  · rw [relay]

theorem commitArrives_filtersAway (cell : CellBytes) : FiltersAway cell fun u => u.commitArrives cell := by
  refine ⟨fun u state => ?_, fun u relay => ?_⟩ <;> unfold State.commitArrives
  · obtain dark | listen | halt := state
    · rw [dark]
    · rw [listen]
    · rw [halt]
  · rw [relay]

theorem haltArrives_filtersAway (cell : CellBytes) : FiltersAway cell fun u => u.haltArrives cell := by
  refine ⟨fun u state => ?_, fun u relay => ?_⟩ <;> unfold State.haltArrives
  · obtain dark | listen | halt := state
    · rw [dark]
    · rw [listen]
    · rw [halt]
  · rw [relay]

theorem unknownArrives_filtersAway (cell : CellBytes) : FiltersAway cell fun u => u.unknownArrives cell := by
  refine ⟨fun u state => ?_, fun u relay => ?_⟩ <;> unfold State.unknownArrives
  · obtain dark | listen | halt := state
    · rw [dark]
    · rw [listen]
    · rw [halt]
  · rw [relay]

theorem filterPicture_filtersAway (cell : CellBytes) (member origin : State → State → State) :
    FiltersAway cell fun u => u.filterPicture cell (member u) (origin u) := by
  refine ⟨fun u state => ?_, fun u relay => ?_⟩ <;> unfold State.filterPicture
  · obtain dark | listen | halt := state
    · rw [dark]
    · rw [listen]
    · rw [halt]
  · rw [relay]

theorem State.filterPicture_roll (roll : u.ring.state = .roll) (cell : CellBytes) (member origin : State → State) :
    u.filterPicture cell member origin = u := by
  unfold State.filterPicture
  rw [roll]

theorem State.unknownArrives_roll (roll : u.ring.state = .roll) (cell : CellBytes) : u.unknownArrives cell = u := by
  unfold State.unknownArrives
  rw [roll]

/-- Every cell but a PROBE passes the cell filter once it is taken whole (R100, R103). -/
theorem exec_carried {c : Instr} {cell : CellBytes} (carried : carriedCell c = some cell) (s : State) :
    ∃ f : State → State, exec c s = .next (s.arrive f) ∧ (c ≠ .probe cell → FiltersAway cell f ∧
      (c ≠ .roster cell → c ≠ .commit cell → c ≠ .haltCell cell → ∀ u : State, u.ring.state = .roll → f u = u)) := by
  cases c <;> cases carried
  case probe => exact ⟨_, rfl, fun other => absurd rfl other⟩
  case roster => exact ⟨_, rfl, fun _ => ⟨rosterArrives_filtersAway cell, fun other => absurd rfl other⟩⟩
  case commit => exact ⟨_, rfl, fun _ => ⟨commitArrives_filtersAway cell, fun _ other => absurd rfl other⟩⟩
  case haltCell => exact ⟨_, rfl, fun _ => ⟨haltArrives_filtersAway cell, fun _ _ other => absurd rfl other⟩⟩
  case unknownKindCell =>
    exact ⟨_, rfl, fun _ => ⟨unknownArrives_filtersAway cell, fun _ _ _ u roll => u.unknownArrives_roll roll cell⟩⟩
  all_goals
    exact ⟨_, rfl, fun _ => ⟨filterPicture_filtersAway cell _ _, fun _ _ _ u roll => u.filterPicture_roll roll cell _ _⟩⟩

/-- Settles O16: by the command that brings the cell. -/
theorem cellFilterOutsideRun : Obligations.CellFilterOutsideRun := by
  intro c cell s carried running
  obtain ⟨f, answers, filters⟩ := exec_carried carried s
  refine ⟨fun unlocked => ?_, fun other locked => ?_⟩
  · rw [answers, State.arrive_unlocked unlocked]
  · obtain ⟨⟨discards, forwards⟩, inRoll⟩ := filters other
    rw [answers, State.arrive_hears ⟨running, locked⟩]
    refine ⟨fun state => ?_, fun relay => ?_, fun roll noRoster noCommit noHalt => ?_⟩
    · rw [discards s.heard state]
    · refine ⟨_, rfl, ?_⟩
      rw [forwards s.heard relay]
      exact s.heard.forward_forwards cell
    · rw [inRoll noRoster noCommit noHalt s.heard roll]

theorem State.filterPicture_stale (run : u.ring.state = .run) {cell : CellBytes} (other : cellEpoch cell ≠ u.epoch)
    (member origin : State → State) : u.filterPicture cell member origin = u.countStale := by
  unfold State.filterPicture
  rw [run]
  exact if_pos other

theorem State.filterPicture_origin (run : u.ring.state = .run) {cell : CellBytes} (same : cellEpoch cell = u.epoch)
    (role : u.ring.role = .origin) (member origin : State → State) :
    u.filterPicture cell member origin = origin u := by
  unfold State.filterPicture
  rw [run]
  exact (if_neg (not_not.2 same)).trans (if_pos role)

theorem State.filterPicture_member (run : u.ring.state = .run) {cell : CellBytes} (same : cellEpoch cell = u.epoch)
    (role : u.ring.role ≠ .origin) (member origin : State → State) :
    u.filterPicture cell member origin = member u := by
  unfold State.filterPicture
  rw [run]
  exact (if_neg (not_not.2 same)).trans (if_neg role)

/-- Settles O17: by the kind of the cell. -/
theorem cellFilterInRun : Obligations.CellFilterInRun := by
  intro cell s hears run
  refine ⟨next_arrive hears _ ?_, next_arrive hears _ ?_, fun other no7 no8 => next_arrive hears _ ?_, ?_,
    fun same role => ⟨next_arrive hears _ ?_, next_arrive hears _ ?_⟩⟩
  · simp only [State.rosterArrives, State.heard, run]
  · simp only [State.commitArrives, State.heard, run]
  · have away : ¬(cellEpoch cell = s.heard.epoch ∨ demotingCode cell = true) := by
      rintro (same | demoting)
      · exact other same
      · simp only [demotingCode, Bool.or_eq_true, beq_iff_eq] at demoting
        exact demoting.elim no7 no8
    unfold State.haltArrives
    rw [show s.heard.ring.state = .run from run]
    exact if_neg away
  · rintro c (rfl | ⟨other, rfl | rfl | rfl | rfl⟩)
    · refine next_arrive hears _ ?_
      unfold State.unknownArrives
      rw [show s.heard.ring.state = .run from run]
      rfl
    all_goals exact next_arrive hears _ (s.heard.filterPicture_stale run other _ _)
  · exact s.heard.filterPicture_origin run same role _ _
  · exact s.heard.filterPicture_origin run same role _ _

/-! ## Rosters: the cases of R139 -/

/-- What each case does at a station that has heard the ROSTER (R139). -/
def State.rosterOutcome (s : State) (cell : CellBytes) : RosterCase → State
  | .superseded => s
  | .elected => s.elect (readRoster cell)
  | .stale => s
  | .outranked => s
  | .duplicateId => s.raiseDemoting .duplicateId .duplicateId
  | .ringTooLong => s.raiseDemoting .ringTooLong .ringTooLong
  | .append => s.forward (appendRoster cell s.ownEntry)

theorem State.rosterInRoll_outcome {cell : CellBytes} (form : RosterForm (readRoster cell)) (s : State) :
    s.rosterInRoll cell = s.rosterHeard.rosterOutcome cell (s.rosterHeard.rosterCase (readRoster cell)) := by
  unfold State.rosterInRoll
  dsimp only
  rw [if_pos ((RosterCell.goodForm_iff _).2 form)]
  split <;> next named => rw [named]; rfl

theorem State.heard_rosterHeard (s : State) : s.heard.rosterHeard = s.rosterSeen := rfl

theorem State.rosterSeen_kept (s : State) :
    s.rosterSeen.tx = s.tx ∧ s.rosterSeen.ring.config = s.ring.config ∧ s.rosterSeen.serial = s.serial ∧
      s.rosterSeen.ring.launchNumber = s.ring.launchNumber ∧ s.rosterSeen.ring.lastEpoch = s.ring.lastEpoch := by
  unfold State.rosterSeen
  split <;> exact ⟨rfl, rfl, rfl, rfl, rfl⟩

theorem State.rosterSeen_case (s : State) (r : RosterCell) : s.rosterSeen.rosterCase r = s.rosterCase r := by
  unfold State.rosterSeen
  split <;> rfl

/-- A ROSTER of good form in ROLL acts by its case (R137, R139). -/
theorem exec_roster_case (hears : s.Hears) (roll : s.ring.state = .roll) {cell : CellBytes}
    (form : RosterForm (readRoster cell)) {k : RosterCase} (named : s.rosterCase (readRoster cell) = k) :
    exec (.roster cell) s = .next (s.rosterSeen.rosterOutcome cell k) := by
  refine next_arrive hears _ ?_
  unfold State.rosterArrives
  rw [show s.heard.ring.state = .roll from roll]
  dsimp only
  rw [State.rosterInRoll_outcome form, State.heard_rosterHeard, State.rosterSeen_case, named]

theorem State.rosterCase_superseded {r : RosterCell} (own : r.serial = s.serial) (old : r.launch ≠ s.ring.launchNumber) :
    s.rosterCase r = .superseded :=
  if_pos ⟨own, old⟩

theorem State.rosterCase_elected {r : RosterCell} (own : r.serial = s.serial) (latest : r.launch = s.ring.launchNumber) :
    s.rosterCase r = .elected :=
  (if_neg fun ⟨_, old⟩ => old latest).trans (if_pos own)

theorem State.rosterCase_stale {r : RosterCell} (other : r.serial ≠ s.serial)
    (listed : ∃ e ∈ r.entries, e.serial = s.serial) : s.rosterCase r = .stale := by
  refine (if_neg fun ⟨own, _⟩ => other own).trans ((if_neg other).trans (if_pos ?_))
  simpa only [List.any_eq_true, beq_iff_eq] using listed

/-- The originator's serial is that of entry 0 (R137). -/
theorem RosterForm.serial_ne {r : RosterCell} (form : RosterForm r) {serial : Serial}
    (unlisted : ∀ e ∈ r.entries, e.serial ≠ serial) : r.serial ≠ serial := by
  obtain ⟨_, _, _, _, _, _, e, head, _, same, _⟩ := form
  exact same ▸ unlisted e (List.mem_of_mem_head? head)

/-- A ROSTER that does not list the station: outranked, or by its IDs and its room (R139 cases 4 to 7). -/
theorem State.rosterCase_unlisted {r : RosterCell} (form : RosterForm r)
    (unlisted : ∀ e ∈ r.entries, e.serial ≠ s.serial) :
    s.rosterCase r =
      if s.eligible = true ∧ s.stationId.toNat < r.originator.toNat then .outranked
      else if ∃ e ∈ r.entries, e.id = s.stationId then .duplicateId
      else if r.count = 16 then .ringTooLong
      else .append := by
  have other := form.serial_ne unlisted
  have noSerial : ¬r.entries.any (fun e => e.serial == s.serial) = true := by
    simpa only [List.any_eq_true, beq_iff_eq, not_exists, not_and] using unlisted
  have sameId : r.entries.any (fun e => e.id == s.stationId && e.serial != s.serial) = true ↔
      ∃ e ∈ r.entries, e.id = s.stationId := by
    simp only [List.any_eq_true, Bool.and_eq_true, beq_iff_eq, bne_iff_ne]
    exact ⟨fun ⟨e, he, id, _⟩ => ⟨e, he, id⟩, fun ⟨e, he, id⟩ => ⟨e, he, id, unlisted e he⟩⟩
  unfold State.rosterCase
  rw [if_neg fun ⟨own, _⟩ => other own, if_neg other, if_neg noSerial]
  simp only [sameId]

/-- Settles O18: a ROSTER of bad form is not heard; the other three cases only hear it. -/
theorem rostersThatEndAtTheStation : Obligations.RostersThatEndAtTheStation := by
  rintro cell s r hears roll rfl
  refine ⟨fun bad => next_arrive hears _ ?_, fun form why => ?_⟩
  · unfold State.rosterArrives
    rw [show s.heard.ring.state = .roll from roll]
    exact if_neg (bad ∘ (RosterCell.goodForm_iff _).1)
  · obtain ⟨own, old⟩ | ⟨other, listed⟩ | ⟨unlisted, outranked⟩ := why
    · exact exec_roster_case hears roll form (State.rosterCase_superseded own old)
    · exact exec_roster_case hears roll form (State.rosterCase_stale other listed)
    · exact exec_roster_case hears roll form ((State.rosterCase_unlisted form unlisted).trans (if_pos outranked))

/-! ## Election (R141) -/

/-- The highest last epoch of a roster's entries (R141). -/
def highestEpoch (entries : List RollEntry) : Nat := entries.foldl (fun a e => max a e.lastEpoch.toNat) 0

theorem foldl_max_bounds (entries : List RollEntry) (a : Nat) :
    (a ≤ entries.foldl (fun a e => max a e.lastEpoch.toNat) a ∧
      ∀ x ∈ entries, x.lastEpoch.toNat ≤ entries.foldl (fun a e => max a e.lastEpoch.toNat) a) ∧
    (entries.foldl (fun a e => max a e.lastEpoch.toNat) a = a ∨
      ∃ x ∈ entries, x.lastEpoch.toNat = entries.foldl (fun a e => max a e.lastEpoch.toNat) a) := by
  induction entries generalizing a with
  | nil => exact ⟨⟨Nat.le_refl a, List.forall_mem_nil _⟩, .inl rfl⟩
  | cons e rest ih =>
    obtain ⟨⟨above, all⟩, reached⟩ := ih (max a e.lastEpoch.toNat)
    obtain ⟨old, new⟩ := max_le_iff.1 above
    refine ⟨⟨old, List.forall_mem_cons.2 ⟨new, all⟩⟩, ?_⟩
    obtain same | ⟨x, hx, same⟩ := reached
    · obtain first | second := max_choice a e.lastEpoch.toNat
      · exact .inl (same.trans first)
      · exact .inr ⟨e, List.mem_cons_self, (same.trans second).symm⟩
    · exact .inr ⟨x, List.mem_cons_of_mem e hx, same⟩

theorem highestEpoch_bounds {entries : List RollEntry} (some : entries ≠ []) :
    (∀ x ∈ entries, x.lastEpoch.toNat ≤ highestEpoch entries) ∧
      ∃ x ∈ entries, x.lastEpoch.toNat = highestEpoch entries := by
  obtain ⟨⟨_, all⟩, zero | reached⟩ := foldl_max_bounds entries 0
  · obtain ⟨e, rest, rfl⟩ := List.exists_cons_of_ne_nil some
    refine ⟨all, e, List.mem_cons_self, ?_⟩
    have := all e List.mem_cons_self
    unfold highestEpoch
    omega
  · exact ⟨all, reached⟩

theorem newEpoch_toNat {entries : List RollEntry} (some : entries ≠ []) :
    (newEpoch entries).toNat = if highestEpoch entries = 255 then 1 else highestEpoch entries + 1 := by
  obtain ⟨_, x, _, same⟩ := highestEpoch_bounds some
  have := x.lastEpoch.isLt
  change (if highestEpoch entries = 255 then (1 : Byte) else byteOf (highestEpoch entries + 1)).toNat = _
  split
  · rfl
  · rw [byteOf, BitVec.toNat_ofNat]
    omega

theorem WeightMode.code_eq (mode : WeightMode) : mode.code = if mode = .top then 0 else 1 := by cases mode <;> rfl

/-- Election, said once (R141, R142). -/
theorem State.elect_elects {g : ConfigCopy} (config : s.ring.config = some g) (r : RosterCell) :
    s.elect r =
      { s with
        ring := { s.ring with elected := true, rosterTimer := none, commitEpoch := newEpoch r.entries }
        tx := { s.tx with
          launch := placeIn (.commit (commitOf g (newEpoch r.entries) r))
            (s.tx.launch.filter (fun c => c.kind != .roster)) } } := by
  unfold State.elect
  rw [config]
  rfl

/-- Settles O20: the case of R139 is election, and the new epoch is one above the highest last epoch. -/
theorem ownRosterElectsTheStation : Obligations.OwnRosterElectsTheStation := by
  rintro cell s r g hears roll config rfl form own latest
  obtain ⟨sameTx, sameConfig, _⟩ := s.rosterSeen_kept
  have nonempty : (readRoster cell).entries ≠ [] := by
    obtain ⟨_, _, _, _, _, _, e, head, _⟩ := form
    intro empty
    rw [empty] at head
    cases head
  obtain ⟨bound, reached⟩ := highestEpoch_bounds nonempty
  refine ⟨_, newEpoch (readRoster cell).entries, highestEpoch (readRoster cell).entries,
    placeIn (.commit (commitOf g (newEpoch (readRoster cell).entries) (readRoster cell)))
      (s.tx.launch.filter (fun c => c.kind != .roster)),
    exec_roster_case hears roll form (State.rosterCase_elected own latest), bound, reached, newEpoch_toNat nonempty, ?_, ?_⟩
  · rw [← g.mode.code_eq]
    exact placeIn_placed _ _
  · rw [← sameTx]
    exact State.elect_elects (sameConfig.trans config) _

/-! ## Demoting halts -/

/-- Settles O21: the fifth and sixth case of R139 raise a halt with demotion pending. -/
theorem rostersThatDemoteTheStation : Obligations.RostersThatDemoteTheStation := by
  rintro cell s r hears roll rfl form unlisted ranked
  have named := (State.rosterCase_unlisted (s := s) form unlisted).trans (if_neg ranked)
  obtain ⟨_, _, _, _, sameEpoch⟩ := s.rosterSeen_kept
  rw [← sameEpoch]
  refine ⟨fun sameId => ⟨_, exec_roster_case hears roll form (named.trans (if_pos sameId)), ?_⟩,
    fun otherIds full => ⟨_, exec_roster_case hears roll form (named.trans ((if_neg ?_).trans (if_pos full))), ?_⟩⟩
  · exact State.raiseHalt_raised _ _ _
  · exact fun ⟨e, he, id⟩ => otherIds e he id
  · exact State.raiseHalt_raised _ _ _

/-! ## COMMITs -/

theorem exec_commit_roll (hears : s.Hears) (roll : s.ring.state = .roll) (cell : CellBytes) :
    exec (.commit cell) s = .next (s.heard.commitInRoll cell) := by
  refine next_arrive hears _ ?_
  unfold State.commitArrives
  rw [show s.heard.ring.state = .roll from roll]

theorem CommitCell.originSerial_head {c : CommitCell} {e : RosterEntry} (head : c.entries.head? = some e) :
    c.originSerial = e.serial := by
  unfold CommitCell.originSerial
  cases entries : c.entries with
  | nil => rw [entries] at head; cases head
  | cons d rest => rw [entries] at head; cases head; rfl

/-- A COMMIT of good form in ROLL (R143). -/
theorem State.commitInRoll_good {cell : CellBytes} (form : CommitForm (readCommit cell)) (s : State) :
    s.commitInRoll cell =
      if (readCommit cell).originSerial = s.serial then s.ownCommitReturns (readCommit cell)
      else if s.ring.elected then s
      else
        ((positionOf s.serial (readCommit cell).entries).map (s.joinAsMember cell (readCommit cell))).getD
          (s.raiseHalt .notListed (readCommit cell).epoch) := by
  unfold State.commitInRoll
  dsimp only
  rw [if_pos ((CommitCell.goodForm_iff _).2 form)]
  cases positionOf s.serial (readCommit cell).entries <;> rfl

/-- Settles O22: by the cases of R143 that do not commit the station. -/
theorem commitsThatEndAtTheStation : Obligations.CommitsThatEndAtTheStation := by
  rintro cell s c hears roll rfl
  rw [exec_commit_roll hears roll]
  refine ⟨fun bad => ?_, fun form e head => ⟨fun own stray => ?_, fun other elected => ?_, fun unelected unlisted => ?_⟩⟩
  · exact congrArg Host.Outcome.next (if_neg (bad ∘ (CommitCell.goodForm_iff _).1))
  all_goals rw [State.commitInRoll_good form, CommitCell.originSerial_head head]
  · exact congrArg Host.Outcome.next ((if_pos own).trans (if_neg stray))
  · exact congrArg Host.Outcome.next ((if_neg other).trans (if_pos elected))
  · have none : positionOf s.heard.serial (readCommit cell).entries = none :=
      List.findIdx?_eq_none_iff.2 fun x hx => beq_eq_false_iff_ne.2 (unlisted x hx)
    have other : e.serial ≠ s.heard.serial := unlisted e (List.mem_of_mem_head? head)
    have idle : ¬s.heard.ring.elected = true := Bool.eq_false_iff.1 unelected
    refine ⟨_, rfl, ?_⟩
    rw [if_neg other, if_neg idle, none]
    exact State.raiseHalt_raised _ _ _

/-- What a COMMIT of good form commits to (R144, R145). -/
theorem CommitCell.committed_commits {c : CommitCell} (form : CommitForm c) (p : Nat) :
    Commits c p (c.committed p ((weightModeOf c.modeCode).getD .top)) := by
  obtain ⟨_, _, _, _, _, _, _, _, mode, _⟩ := form
  obtain ⟨weight, named, top⟩ := weightModeOf_small mode
  refine ⟨rfl, rfl, rfl, ?_, rfl, rfl, rfl⟩
  rw [named]
  exact top

theorem positionOf_eq_some {serial : Serial} {entries : List RosterEntry} {p : Nat}
    (listed : (entries[p]?).map RosterEntry.serial = some serial)
    (first : ∀ i < p, (entries[i]?).map RosterEntry.serial ≠ some serial) : positionOf serial entries = some p := by
  obtain ⟨e, at_p, same⟩ := Option.map_eq_some_iff.1 listed
  obtain ⟨inRange, here⟩ := List.getElem?_eq_some_iff.1 at_p
  refine List.findIdx?_eq_some_iff_getElem.2 ⟨inRange, ?_, fun i before found => ?_⟩
  · rw [here]
    exact beq_iff_eq.2 same
  · refine first i before ?_
    rw [List.getElem?_eq_getElem (before.trans inRange), Option.map_some, beq_iff_eq.1 found]

@[simp] theorem State.forward_origin (s : State) (c : CellBytes) : (s.forward c).origin = s.origin :=
  congrArg Control.origin (s.aside_forward c).control

theorem State.after_firstFrame (s : State) (f : Format) :
    s.after (firstFramePeriods f) = some (s.now + (40000 + (40000000 + rateOf f.rate - 1) / rateOf f.rate)) := by
  unfold State.after firstFramePeriods
  rw [framesPerSecond_eq]
  rfl

/-- Settles O23: the serial's place in the entries is behind entry 0, and the station forwards the COMMIT and enters
RUN. -/
theorem commitThatListsTheStationMakesAMember : Obligations.CommitThatListsTheStationMakesAMember := by
  rintro cell s c p hears roll rfl form unelected listed first behind
  have other : (readCommit cell).originSerial ≠ s.heard.serial := fun own => first 0 (Nat.pos_of_ne_zero behind) <| by
    rw [CommitCell.originSerial_eq ((CommitCell.goodForm_iff _).2 form), own]
    rfl
  have place : positionOf s.heard.serial (readCommit cell).entries = some p := positionOf_eq_some listed first
  have idle : ¬s.heard.ring.elected = true := Bool.eq_false_iff.1 unelected
  have joins := State.commitInRoll_good form s.heard
  rw [if_neg other, if_neg idle, place] at joins
  refine ⟨_, s.heard.forward cell, s.heard.joinAsMember cell (readCommit cell) p, ?_, CommitCell.committed_commits form p,
    s.heard.forward_forwards cell, ?_⟩
  · rw [exec_commit_roll hears roll, joins]
    rfl
  · have enters := (s.heard.forward cell).enterRun_enters .member
      ((readCommit cell).committed p ((weightModeOf (readCommit cell).modeCode).getD .top))
      (s.heard.after (firstFramePeriods (readCommit cell).format))
    rw [State.forward_origin, State.after_firstFrame] at enters
    rw [State.joinAsMember, State.after_firstFrame]
    exact enters

/-- Settles O24: entry to RUN at position 0, with the origin engine at its starting values. -/
theorem ownCommitMakesTheOrigin : Obligations.OwnCommitMakesTheOrigin := by
  rintro cell s c e hears roll rfl form head own elected epoch
  have returns := State.commitInRoll_good form s.heard
  have sameSerial : (readCommit cell).originSerial = s.heard.serial := (CommitCell.originSerial_head head).trans own
  rw [if_pos sameSerial, State.ownCommitReturns, if_pos ⟨elected, epoch⟩] at returns
  dsimp only at returns
  rw [State.enterRun_origin, State.enterRun_now] at returns
  refine ⟨_, _, (exec_commit_roll hears roll cell).trans (congrArg Host.Outcome.next returns),
    CommitCell.committed_commits form 0, ?_⟩
  exact congrArg (fun u : State => u.setOrigin (s.heard.origin.started s.heard.now)) (s.heard.enterRun_enters .origin _ none)

/-! ## HALT cells -/

theorem haltCauseOf_isSome : ∀ code : Byte,
    (haltCauseOf code).isSome = (decide (1 ≤ code.toNat) && decide (code.toNat ≤ 8)) := by decide +kernel

theorem haltCauseOf_code {code : Byte} {cause : HaltCause} (h : haltCauseOf code = some cause) : cause.code = code :=
  beq_iff_eq.1 (List.find?_some (p := fun c : HaltCause => c.code == code) h)

/-- The form of a HALT cell (R154). -/
theorem readHalt_isSome (cell : CellBytes) :
    (readHalt cell).isSome = true ↔
      1 ≤ (byteAt cell 5).toNat ∧ (byteAt cell 5).toNat ≤ 8 ∧ 1 ≤ (byteAt cell 4).toNat ∧ (byteAt cell 4).toNat ≤ 63 := by
  have codes := haltCauseOf_isSome (byteAt cell 5)
  have zero : byteAt cell 4 = 0 ↔ (byteAt cell 4).toNat = 0 :=
    ⟨fun h => by rw [h]; rfl, fun h => BitVec.eq_of_toNat_eq h⟩
  unfold readHalt
  cases named : haltCauseOf (byteAt cell 5) with
  | none =>
    rw [named] at codes
    have : ¬(1 ≤ (byteAt cell 5).toNat ∧ (byteAt cell 5).toNat ≤ 8) := by
      simpa only [Option.isSome_none, Bool.false_eq, Bool.and_eq_false_iff, decide_eq_false_iff_not, not_and_or] using codes
    exact ⟨nofun, fun ⟨low, high, _⟩ => absurd ⟨low, high⟩ this⟩
  | some cause =>
    rw [named] at codes
    have : 1 ≤ (byteAt cell 5).toNat ∧ (byteAt cell 5).toNat ≤ 8 := by
      simpa only [Option.isSome_some, Bool.true_eq, Bool.and_eq_true, decide_eq_true_eq] using codes
    dsimp only
    simp only [zero]
    split
    · next bad => exact ⟨nofun, fun ⟨_, _, low, high⟩ => by omega⟩
    · next good => exact ⟨fun _ => by omega, fun _ => rfl⟩

theorem readHalt_fields {cell : CellBytes} {h : HaltRecord} (read : readHalt cell = some h) :
    h.cause.code = byteAt cell 5 ∧ h.reporter = byteAt cell 4 ∧ h.epoch = cellEpoch cell := by
  unfold readHalt at read
  split at read
  · cases read
  · next cause named =>
    split at read
    · cases read
    · cases read
      exact ⟨haltCauseOf_code named, rfl, rfl⟩

/-- Settles O25: the cell filter hands the cell on, and its form decides. -/
theorem haltCellsAreAccepted : Obligations.HaltCellsAreAccepted := by
  intro cell s hears taken
  have accepts : exec (.haltCell cell) s = .next (s.heard.acceptHalt cell) := by
    refine next_arrive hears _ ?_
    unfold State.haltArrives
    obtain roll | ⟨run, ours⟩ := taken
    · rw [show s.heard.ring.state = .roll from roll]
    · rw [show s.heard.ring.state = .run from run]
      refine if_pos (ours.imp_right fun demoting => ?_)
      simp only [demotingCode, Bool.or_eq_true, beq_iff_eq]
      exact demoting
  rw [accepts, ← readHalt_isSome]
  unfold State.acceptHalt
  cases read : readHalt cell with
  | none => exact ⟨nofun, fun _ => rfl⟩
  | some h => exact ⟨fun _ => ⟨h, _, rfl, s.heard.enterHalt_entered h cell, readHalt_fields read⟩, fun bad => absurd rfl bad⟩

end

end Sys2Proof.Machine
end

section
/-! SUPPORT. Timers (R77 to R81, R88, R138 to R170), the source port and the tap port (chapters 2, 3 and 10). -/
namespace Sys2Proof.Machine

section
variable {s t : State}

/-! ## The frame timer and the line slot timer -/

theorem State.format_committed {k : Committed} (held : s.ring.committed = some k) : s.format = k.format := by
  rw [State.format, held]

theorem State.epoch_committed {k : Committed} (held : s.ring.committed = some k) : s.epoch = k.epoch := by
  rw [State.epoch, held]

theorem FrameTimer.due_eq (t : FrameTimer) (f : Format) :
    t.due f = t.start + t.next * 20000000 / rateOf f.rate := by
  rw [FrameTimer.due, frameExpiry, framesPerSecond_eq]
  rfl

theorem FrameTimer.slotDue_eq (t : FrameTimer) (f : Format) (slot : Nat) :
    t.slotDue f slot =
      t.start + ((t.next - 1) * (f.height + 8) + slot) * 20000000 / (rateOf f.rate * (f.height + 8)) := by
  rw [FrameTimer.slotDue, linePeriodEnd, framesPerSecond_eq]
  rfl

/-- A line slot, said once (R80). -/
theorem OriginEngine.slotExpired_eq (o : OriginEngine) (height slot : Nat) :
    o.slotExpired height slot =
      { o with
        lines := if 8 ≤ slot ∧ o.lines.length < 2 then o.lines ++ [slot - 8] else o.lines
        skipped := if 8 ≤ slot ∧ 2 ≤ o.lines.length then satInc o.skipped else o.skipped
        lineSlot := if slot < height + 7 then some (slot + 1) else none } := by
  unfold OriginEngine.slotExpired OriginEngine.slotLine
  by_cases early : slot < 8
  · simp only [if_pos early, Nat.not_le.2 early, false_and, if_false]
  · by_cases room : o.lines.length < 2
    · simp only [if_neg early, Nat.not_lt.1 early, room, Nat.not_le.2 room, and_true, and_false, if_true, if_false]
    · simp only [if_neg early, Nat.not_lt.1 early, room, Nat.not_lt.1 room, and_true, and_false, if_true, if_false]

/-- Settles O41: the frame timer and the line slot timer at their due times. -/
theorem frameAndLineTimersPaceTheOrigin : Obligations.FrameAndLineTimersPaceTheOrigin := by
  refine ⟨fun s t k n running held timer first later => next_live running _ ?_,
    fun s t k slot running held timer next => next_live running _ ?_⟩
  · have number : s.origin.nextNumber = n := by
      unfold OriginEngine.nextNumber
      cases frame : s.origin.frameNumber with
      | none => exact (first frame).symm
      | some m => exact (later m frame).symm
    unfold State.frameTimerExpires
    rw [timer]
    dsimp only
    rw [State.format_committed held, FrameTimer.due_eq, OriginEngine.frameExpired, number]
    rfl
  · unfold State.lineSlotExpires
    rw [timer, next]
    dsimp only
    rw [State.format_committed held, FrameTimer.slotDue_eq, OriginEngine.slotExpired_eq]
    rfl

/-! ## The lap limit -/

/-- The oldest entry in flight is lost (R88). -/
theorem loseOldest_eq {pre post : List OutEntry} {e : OutEntry} (oldest : ∀ d ∈ pre, d.state ≠ .inFlight)
    (flies : e.state = .inFlight) :
    loseOldest (pre ++ e :: post) = some (pre ++ { e with state := .lost } :: post, e.launch) := by
  induction pre with
  | nil => exact if_pos flies
  | cons d rest ih =>
    obtain ⟨landed, others⟩ := List.forall_mem_cons.1 oldest
    rw [List.cons_append, loseOldest, if_neg landed, ih others]
    rfl

/-- Settles O42: the entry is lost, and the count it brings to 3 raises the halt. -/
theorem lapLimitLosesTheOldestEntry : Obligations.LapLimitLosesTheOldestEntry := by
  rintro s pre e post b running outstanding flies oldest rfl
  have expires : ∀ u : State, u = { s with
      now := max s.now (e.launch + 400)
      origin := { s.origin with
        outstanding := pre ++ { e with state := .lost } :: post
        lostByTime := satInc s.origin.lostByTime
        lapCount := s.origin.lapCount + 1 } } →
      s.lapLimitExpires = if s.origin.lapCount + 1 = 3 then u.raiseInRun .lapTimeout else u := by
    rintro u rfl
    unfold State.lapLimitExpires
    rw [outstanding, loseOldest_eq oldest flies]
    rfl
  refine ⟨fun early => next_live running _ ((expires _ rfl).trans (if_neg ?_)), fun third => ?_⟩
  · omega
  · refine ⟨_, next_live running _ ((expires _ rfl).trans (if_pos ?_)), State.raiseHalt_raised _ _ _⟩
    omega

/-! ## The ring controller's timers -/

/-- Settles O43: each timer that runs acts at its expiry. -/
theorem ringTimersExpire : Obligations.RingTimersExpire := by
  intro s d running
  refine ⟨fun timer => ⟨_, next_live running _ ?_, State.launchRoster_launched _⟩, fun timer => next_live running _ ?_,
    fun timer roll elected => ⟨_, next_live running _ ?_, State.raiseHalt_raised _ _ _⟩,
    fun timer other => next_live running _ ?_, fun timer => ⟨_, next_live running _ ?_, State.raiseHalt_raised _ _ _⟩,
    fun timer => ⟨_, next_live running _ ?_, State.raiseHalt_raised _ _ _⟩⟩
  · unfold State.rosterTimerExpires
    rw [timer]
    rfl
  · unfold State.noOriginExpires
    rw [timer]
    rfl
  · unfold State.commitLimitExpires
    rw [timer]
    exact if_pos ⟨roll, elected⟩
  · unfold State.commitLimitExpires
    rw [timer]
    refine if_neg fun ⟨roll, elected⟩ => ?_
    obtain notRoll | unelected := other
    · exact notRoll roll
    · rw [unelected] at elected
      cases elected
  · unfold State.firstFrameExpires
    rw [timer]
    rfl
  · unfold State.frameMissingExpires
    rw [timer]
    rfl

/-- The station at the end of a hold-off without demotion, before the test for ROLL (R156; log 25). -/
def State.heldOff (s : State) (d : Nat) : State :=
  { s with
    now := max s.now d
    ring := { s.ring with state := .listen, holdOff := none }
    tx := { s.tx with forward := [] } }

theorem State.holdOffExpires_demoted {d : Nat} (timer : s.ring.holdOff = some d) {c : Demotion}
    (pending : s.ring.demotion = some c) :
    s.holdOffExpires = ((s.reach d).setRing { s.ring with holdOff := none }).enterRelay c.relayCause := by
  unfold State.holdOffExpires
  rw [timer, pending]

theorem State.holdOffExpires_free {d : Nat} (timer : s.ring.holdOff = some d) (free : s.ring.demotion = none) :
    s.holdOffExpires = (s.heldOff d).tryRoll := by
  unfold State.holdOffExpires
  rw [timer, free]
  rfl

/-- Settles O44: demotion pending decides between RELAY and LISTEN. -/
theorem holdOffEndsInListenOrRelay : Obligations.HoldOffEndsInListenOrRelay := by
  intro s d running timer
  refine ⟨fun c pending => next_live running _ ?_, fun free => ?_⟩
  · rw [State.holdOffExpires_demoted timer pending, State.enterRelay_eq]
    cases c <;> rfl
  · exact ⟨s.heldOff d, _, next_live running _ (State.holdOffExpires_free timer free), rfl,
      fun unready => State.tryRoll_stays fun ⟨_, link⟩ => unready link,
      fun locked qualified => State.tryRoll_enters rfl locked qualified⟩

/-- Settles O45: the record of the beacon shows the station's values. -/
theorem beaconsShowTheStation : Obligations.BeaconsShowTheStation := by
  intro s d running timer
  refine ⟨s.status, next_live running _ ?_, rfl, rfl, rfl, rfl, rfl, rfl, rfl, rfl, rfl, rfl, fun none => ?_, fun c held => ?_⟩
  · unfold State.beaconExpires
    rw [timer]
    rfl
  · simp only [State.status, State.stationId, State.eligible, State.tooDense, none, and_self]
  · simp only [State.status, State.stationId, State.eligible, State.tooDense, held, and_self]

/-! ## Fields of a record -/

theorem byteAt_drop (bs : List Byte) (n i : Nat) : byteAt (bs.drop n) i = byteAt bs (n + i) := by
  simp only [byteAt, List.getD_eq_getElem?_getD, List.getElem?_drop]

theorem colourAt_drop (bs : List Byte) (n i : Nat) : colourAt (bs.drop n) i = colourAt bs (n + i) := by
  simp only [colourAt, byteAt_drop, Nat.add_assoc]

theorem numBytes_eq (n : Nat) : numBytes n = [BitVec.ofNat 8 (n / 256), BitVec.ofNat 8 n] := by
  have high : (BitVec.ofNat 16 n).extractLsb' 8 8 = BitVec.ofNat 8 (n / 256) := by
    apply BitVec.eq_of_toNat_eq
    rw [BitVec.extractLsb'_toNat, BitVec.toNat_ofNat, BitVec.toNat_ofNat, Nat.shiftRight_eq_div_pow]
    omega
  have low : (BitVec.ofNat 16 n).extractLsb' 0 8 = BitVec.ofNat 8 n := by
    apply BitVec.eq_of_toNat_eq
    rw [BitVec.extractLsb'_toNat, BitVec.toNat_ofNat, BitVec.toNat_ofNat, Nat.shiftRight_zero]
    omega
  rw [numBytes, halfBytes, high, low]

/-! ## LAYER_SETUP -/

theorem State.refuse_refused (s : State) (why : Reason) : s.Refused why (s.refuse why 1) := rfl

theorem wholeRecord_iff (r : List Byte) (required : Nat) :
    wholeRecord r required = true ↔ r.length = numAt r 1 ∧ numAt r 1 = required := by
  simp only [wholeRecord, recordLength, Bool.and_eq_true, beq_iff_eq]

/-- A record is read as the setup it gives (R23, R24). -/
theorem readSetup_of_given {r : List Byte} {i : Fin 4} {v : Setup} (h : SetupGiven r i v) : readSetup r = some (i, v) := by
  obtain ⟨length, field, layer, base, x0, y0, width, height, cover, target, step, marks, range⟩ := h
  obtain ⟨m0, m1, m2, m3⟩ : markActionOf (byteAt r 16).toNat = some v.marks.e0 ∧
      markActionOf (byteAt r 17).toNat = some v.marks.e1 ∧ markActionOf (byteAt r 18).toNat = some v.marks.e2 ∧
      markActionOf (byteAt r 19).toNat = some v.marks.e3 := ⟨marks 0, marks 1, marks 2, marks 3⟩
  obtain ⟨hbase, hx0, hy0, hwidth, hheight, hright, hbottom, hcover, htarget, hstep⟩ := range
  have small : (byteAt r 3).toNat < 4 := layer ▸ i.isLt
  unfold readSetup
  rw [if_pos ((wholeRecord_iff r 20).2 ⟨length.trans field.symm, field⟩), dif_pos small, m0, m1, m2, m3]
  dsimp only
  rw [← base, ← x0, ← y0, ← width, ← height, ← cover, ← target, ← step,
    if_pos ⟨hbase, hx0, hy0, Nat.one_le_iff_ne_zero.1 hwidth, Nat.one_le_iff_ne_zero.1 hheight, hright, hbottom, hcover,
      htarget, hstep⟩]
  exact congrArg some (Prod.ext (Fin.ext layer) rfl)

theorem given_of_readSetup {r : List Byte} {i : Fin 4} {v : Setup} (h : readSetup r = some (i, v)) : SetupGiven r i v := by
  have range := readSetup_inRange h
  unfold readSetup at h
  split at h
  · next whole =>
    obtain ⟨length, field⟩ := (wholeRecord_iff r 20).1 whole
    split at h
    · split at h
      · next m0 m1 m2 m3 h0 h1 h2 h3 =>
        dsimp only at h
        split at h
        · cases h
          refine ⟨length.trans field, field, rfl, rfl, rfl, rfl, rfl, rfl, rfl, rfl, rfl, fun m => ?_, range⟩
          match m with
          | 0 => exact h0
          | 1 => exact h1
          | 2 => exact h2
          | 3 => exact h3
        · cases h
      · cases h
    · cases h
  · cases h

theorem RingState.refusesSetups_iff (k : RingState) : k.refusesSetups = true ↔ k = .dark ∨ k = .relay := by
  cases k <;> simp [RingState.refusesSetups]

/-- Settles O46: NOT_RUNNING by the ring state, MALFORMED where the record does not give a setup. -/
theorem setupsAreTakenOrRefused : Obligations.SetupsAreTakenOrRefused := by
  intro ws r s running carried
  obtain rfl := carried.eq
  refine ⟨fun state => ?_, fun notDark notRelay => ?_⟩
  · have refuses := (RingState.refusesSetups_iff _).2 state
    exact ⟨⟨_, next_live running _ (if_pos refuses), s.refuse_refused _⟩,
      ⟨_, next_live running _ (if_pos refuses), s.refuse_refused _⟩⟩
  · have takes : ¬s.ring.state.refusesSetups = true := fun refuses =>
      ((RingState.refusesSetups_iff _).1 refuses).elim notDark notRelay
    have taken : ∀ {t}, _ = t → s.setupTaken (recordBytes ws) = t := fun same => (if_neg takes).trans same
    refine ⟨⟨_, next_live running _ (if_neg takes), s.refuse_refused _⟩, fun bad => ?_, fun i v given => ?_⟩
    · have none : readSetup (recordBytes ws) = none :=
        Option.eq_none_iff_forall_not_mem.2 fun x read => bad ⟨x.1, x.2, given_of_readSetup read⟩
      refine ⟨_, next_live running _ (taken ?_), s.refuse_refused _⟩
      rw [none]
    · refine ⟨s.setLayers (s.layers.accept i v), s.acceptSetup i v, next_live running _ (taken ?_), rfl, fun idle => ?_,
        fun pending => ?_⟩
      · rw [readSetup_of_given given]
      · rw [State.acceptSetup, idle]
        rfl
      · rw [State.acceptSetup, pending]
        exact State.refuse_refused _ _

/-! ## LINE -/

theorem readPixels_length (n : Nat) (bs : List Byte) : (readPixels n bs).length = n := by
  induction n generalizing bs with
  | zero => rfl
  | succ n ih => rw [readPixels, List.length_cons, ih]

theorem readPixels_get {n k : Nat} (inRange : k < n) (bs : List Byte) :
    (readPixels n bs)[k]? =
      some { colour := colourAt bs (4 * k), mark := markOf (byteAt bs (4 * k + 3)) } := by
  induction n generalizing bs k with
  | zero => exact absurd inRange (Nat.not_lt_zero k)
  | succ n ih =>
    cases k with
    | zero => rfl
    | succ k =>
      rw [readPixels, List.getElem?_cons_succ, ih (Nat.lt_of_succ_lt_succ inRange), colourAt_drop, byteAt_drop]
      rw [show 4 + 4 * k = 4 * (k + 1) by omega, show 4 + (4 * k + 3) = 4 * (k + 1) + 3 by omega]

theorem markOf_val (b : Byte) : (markOf b).val = b.toNat % 4 := by
  change (b.extractLsb' 0 2).toNat = _
  rw [BitVec.extractLsb'_toNat, Nat.shiftRight_zero]

/-- A record is read as the line it gives (R42, R44). -/
theorem readLine_of_given {r : List Byte} {l : LineRecord} (h : LineGiven r l) : readLine r = some l := by
  obtain ⟨length, field, layer, line, low, count, some, many, pixels⟩ := h
  have small : (byteAt r 3).toNat < 4 := layer ▸ l.layer.isLt
  have read : readPixels (numAt r 6) (r.drop 8) = l.pixels := by
    refine List.ext_getElem? fun k => ?_
    by_cases inRange : k < numAt r 6
    · obtain ⟨p, hp⟩ : ∃ p, l.pixels[k]? = .some p := ⟨_, List.getElem?_eq_getElem (count ▸ inRange)⟩
      obtain ⟨colour, mark⟩ := pixels k p hp
      rw [readPixels_get inRange, hp, colourAt_drop, byteAt_drop, ← colour, ← Nat.add_assoc]
      exact congrArg _ (congrArg (Pixel.mk p.colour) (Fin.ext ((markOf_val _).trans mark.symm)))
    · rw [List.getElem?_eq_none (by rw [readPixels_length]; omega), List.getElem?_eq_none (by omega)]
  unfold readLine
  dsimp only
  rw [if_pos ((wholeRecord_iff _ _).2 ⟨length, field⟩), dif_pos small, if_pos ⟨line ▸ low, some, many⟩, read, ← line]
  exact congrArg (fun i : Fin 4 => Option.some (LineRecord.mk i l.line l.pixels))
    (Fin.ext layer : (⟨_, small⟩ : Fin 4) = l.layer)

theorem given_of_readLine {r : List Byte} {l : LineRecord} (h : readLine r = some l) : LineGiven r l := by
  unfold readLine at h
  dsimp only at h
  split at h
  · next whole =>
    obtain ⟨length, field⟩ := (wholeRecord_iff _ _).1 whole
    split at h
    · split at h
      · next bounds =>
        obtain ⟨low, some, many⟩ := bounds
        cases h
        refine ⟨length, field, rfl, rfl, low, readPixels_length _ _, some, many, fun k p hp => ?_⟩
        have inRange : k < numAt r 6 := readPixels_length (numAt r 6) (r.drop 8) ▸ (List.getElem?_eq_some_iff.1 hp).1
        dsimp only at hp
        rw [readPixels_get inRange, colourAt_drop, byteAt_drop, ← Nat.add_assoc] at hp
        cases hp
        exact ⟨rfl, markOf_val _⟩
      · cases h
    · cases h
  · cases h

/-- The conditions of R43 after MALFORMED, in their order. -/
theorem State.lineRefusal_eq (s : State) (l : LineRecord) :
    s.lineRefusal l =
      if (s.layers.active.get l.layer).setup.base = 0 then some .noLayer
      else if l.pixels.length ≠ (s.layers.active.get l.layer).setup.width then some .shape
      else if l.line < (s.layers.active.get l.layer).setup.y0 ∨
          (s.layers.active.get l.layer).setup.y0 + (s.layers.active.get l.layer).setup.height - 1 < l.line then
        some .outside
      else if ∃ m, s.source.mergeLine = some m ∧ l.line ≤ m then some .late
      else if ∃ k ∈ s.source.stores.get l.layer, k.line = l.line then some .duplicate
      else if (s.source.stores.get l.layer).length = 4 then some .full
      else none := by
  have late : s.source.mergeLine.any (fun m => decide (l.line ≤ m)) = true ↔
      ∃ m, s.source.mergeLine = some m ∧ l.line ≤ m := by
    rw [Option.any_eq_true]
    simp only [decide_eq_true_eq]
  have duplicate : (s.source.stores.get l.layer).any (fun k => k.line == l.line) = true ↔
      ∃ k ∈ s.source.stores.get l.layer, k.line = l.line := by
    simp only [List.any_eq_true, beq_iff_eq]
  unfold State.lineRefusal
  simp only [late, duplicate]

/-- What a LINE record of good form does, by the first condition that refuses it (R43). -/
def State.lineAnswer (s : State) (l : LineRecord) : Option Reason → State
  | some why => s.refuse why 1
  | none => s.storeLine l

theorem State.lineTaken_given (run : s.ring.state = .run) {r : List Byte} {l : LineRecord} (given : LineGiven r l) :
    s.lineTaken r = s.lineAnswer l (s.lineRefusal l) := by
  unfold State.lineTaken
  rw [if_neg (not_not.2 run), readLine_of_given given]
  dsimp only
  cases s.lineRefusal l <;> rfl

/-- Settles O47: NOT_RUNNING, MALFORMED, and the six conditions after them in their order. -/
theorem linesAreStoredOrRefused : Obligations.LinesAreStoredOrRefused := by
  intro ws r s running carried
  obtain rfl := carried.eq
  refine ⟨fun notRun => ⟨_, next_live running _ (if_pos notRun), s.refuse_refused _⟩, fun run bad => ?_, ?_⟩
  · have none : readLine (recordBytes ws) = none :=
      Option.eq_none_iff_forall_not_mem.2 fun l read => bad ⟨l, given_of_readLine read⟩
    refine ⟨_, next_live running _ ((if_neg (not_not.2 run)).trans ?_), s.refuse_refused _⟩
    rw [none]
  · rintro run l v store given rfl rfl
    refine ⟨_, next_live running _ (State.lineTaken_given run given), ?_⟩
    rw [State.lineRefusal_eq]
    split_ifs
    · exact s.refuse_refused _
    · exact s.refuse_refused _
    · exact s.refuse_refused _
    · exact s.refuse_refused _
    · exact s.refuse_refused _
    · exact s.refuse_refused _
    · rfl

/-! ## Cues and tap records -/

theorem Cue.bytes_eq (c : Cue) :
    c.bytes = [0x03, 0x00, 0x08, c.frame.extractLsb' 8 8, c.frame.extractLsb' 0 8, BitVec.ofNat 8 (c.line / 256),
      BitVec.ofNat 8 c.line, 0x00] := by
  rw [Cue.bytes, numBytes_eq]
  rfl

/-- Settles O48: the heads of the two queues leave laid out as chapter 12 has them. -/
theorem cuesAndTapRecordsLeaveInOrder : Obligations.CuesAndTapRecordsLeaveInOrder := by
  intro s running
  refine ⟨fun c rest queue => ⟨c.bytes.flatMap byteBits, c.bytes_eq ▸ byteBits_carry _, next_live running _ ?_⟩,
    fun empty => next_live running _ ?_, fun r rest queue => ?_, fun empty => next_live running _ ?_, next_live running _ ?_⟩
  · unfold State.cueLeaves
    rw [queue]
    rfl
  · unfold State.cueLeaves
    rw [empty]
  · obtain ⟨n, small, carried⟩ := wordsOf_carry r.bytes
    refine ⟨r.bytes, n, wordsOf r.bytes, r.bytes_laid, small, carried, next_live running _ ?_⟩
    unfold State.tapLeaves
    rw [queue]
    rfl
  · unfold State.tapLeaves
    rw [empty]
  · unfold State.tapLeaves
    split
    · next ready => cases ready
    · rfl

/-! ## The tap queue -/

/-- An offer by the class of the record (R163). -/
theorem Tap.offer_eq (v : Tap) (r : TapRecord) {control carries : Bool} (isControl : r.isControl = control)
    (carriesLost : r.carriesLost = carries) :
    (v.queue.length < (if control then 16 else 14) →
      v.offer r = { v with queue := v.queue ++ [r], controlLost := !carries && v.controlLost }) ∧
    ((if control then 16 else 14) ≤ v.queue.length →
      v.offer r = { v with dropsFrame := satInc v.dropsFrame, drops := satInc v.drops
                           controlLost := control || v.controlLost }) := by
  unfold Tap.offer
  rw [isControl, carriesLost]
  refine ⟨fun room => ?_, fun full => ?_⟩
  · rw [if_pos room]
    cases carries <;> rfl
  · rw [if_neg (Nat.not_lt.2 full)]
    cases control <;> rfl

/-- Settles O49: the two classes of records are those of R163. -/
theorem tapQueueTakesOrDrops : Obligations.TapQueueTakesOrDrops := by
  rintro v r control carries rfl rfl
  exact v.offer_eq r (by cases r <;> rfl) (by cases r <;> rfl)

end

end Sys2Proof.Machine
end

section
/-! SUPPORT. The picture's cells that are not merged (R71, R87, R174), candidates (R5 to R8), the pair a lap leaves (R12),
and departures (R110 to R113). -/
namespace Sys2Proof.Machine

section
variable {s t u : State}

/-! ## Candidates -/

theorem ActiveEntry.takesPart_iff (a : ActiveEntry) (x y : Nat) :
    a.takesPart x y = true ↔
      a.setup.base ≠ 0 ∧ a.setup.x0 ≤ x ∧ x < a.setup.x0 + a.setup.width ∧ a.setup.y0 ≤ y ∧
        y < a.setup.y0 + a.setup.height := by
  simp only [ActiveEntry.takesPart, Setup.covers, Bool.and_eq_true, bne_iff_ne, decide_eq_true_eq, and_assoc]

/-- The slot of a line is the first that bears it (R6). -/
theorem findSlot_eq {pre post : List Slot} {slot : Slot} {y : Nat} (line : slot.line = y) (first : ∀ k ∈ pre, k.line ≠ y) :
    findSlot (pre ++ slot :: post) y = some slot := by
  unfold findSlot
  rw [List.find?_append, List.find?_eq_none.2 fun k hk => by simpa using first k hk, Option.none_or,
    List.find?_cons, beq_iff_eq.2 line]

theorem findSlot_none {store : List Slot} {y : Nat} (none : ∀ k ∈ store, k.line ≠ y) : findSlot store y = .none :=
  List.find?_eq_none.2 fun k hk => by simpa using none k hk

theorem formCandidate_outside {station : Byte} {active : Four ActiveEntry} {stores : Four (List Slot)} {x y : Nat}
    {i : Fin 4} (h : ¬(active.get i).takesPart x y = true ∨ ∀ k ∈ stores.get i, k.line ≠ y) :
    formCandidate station active stores x y i = none := by
  unfold formCandidate
  dsimp only
  obtain outside | none := h
  · exact if_neg outside
  · rw [findSlot_none none]
    exact ite_self _

theorem formCandidate_inside {station : Byte} {active : Four ActiveEntry} {stores : Four (List Slot)} {x y : Nat}
    {i : Fin 4} {slot : Slot} {p : Pixel} (inside : (active.get i).takesPart x y = true)
    (found : findSlot (stores.get i) y = some slot)
    (pixel : slot.pixels[x - (active.get i).setup.x0]? = some p) :
    formCandidate station active stores x y i = candidateOf station i.val (active.get i) p := by
  unfold formCandidate
  dsimp only
  rw [if_pos inside, found]
  dsimp only
  rw [pixel]

/-- Settles O30: outside its window or without a slot a layer offers nothing, and inside the mark's action decides. -/
theorem candidatesFormByMarkActionAndWindow : Obligations.CandidatesFormByMarkActionAndWindow := by
  rintro station active stores x y i a offer rfl rfl
  refine ⟨fun away => formCandidate_outside ?_, fun base left right top bottom pre slot post p store line first pixel => ?_⟩
  · rw [ActiveEntry.takesPart_iff]
    by_cases empty : ∀ k ∈ stores.get i, k.line ≠ y
    · exact .inr empty
    · refine .inl ?_
      rintro ⟨base, left, right, top, bottom⟩
      obtain h | h | h | h | h | h := away
      · exact base h
      · omega
      · omega
      · omega
      · omega
      · exact empty h
  · have found : findSlot (stores.get i) y = some slot := by
      rw [store]
      exact findSlot_eq line first
    rw [formCandidate_inside ((ActiveEntry.takesPart_iff _ x y).2 ⟨base, left, right, top, bottom⟩) found pixel]
    unfold candidateOf
    refine ⟨fun plain => ?_, fun lift => ?_, fun solid => ?_, fun hole => ?_⟩
    · rw [plain]
    · rw [lift]
      dsimp only
      split
      · rw [Nat.min_eq_left (by omega)]
      · rw [Nat.min_eq_right (by omega)]
    · rw [solid]
    · rw [hole]

/-! ## The pair a lap leaves -/

/-- The pair of the two foremost of some candidates. -/
def foremost (cs : List Candidate) : Pair :=
  { top := (cs[0]?).getD Pair.empty.top, second := ((cs[1]?).map Candidate.asSecond).getD Pair.empty.second }

/-- The pair with a candidate that was offered before all it holds: it goes before its equals. -/
def Pair.offeredBefore (p : Pair) (c : Candidate) : Pair :=
  if c.priority < p.top.priority then
    if c.priority < p.second.priority then p else { p with second := c.asSecond }
  else { top := c, second := p.top.asSecond }

theorem Pair.insert_offeredBefore (p : Pair) (a c : Candidate) :
    (p.offeredBefore a).insert c = (p.insert c).offeredBefore a := by
  unfold Pair.offeredBefore Pair.insert Candidate.asSecond
  grind

theorem foldl_insert_offeredBefore (cs : List Candidate) (p : Pair) (a : Candidate) :
    cs.foldl Pair.insert (p.offeredBefore a) = (cs.foldl Pair.insert p).offeredBefore a := by
  induction cs generalizing p with
  | nil => rfl
  | cons c rest ih => rw [List.foldl_cons, List.foldl_cons, Pair.insert_offeredBefore, ih]

theorem foremost_offeredBefore {stronger others : List Candidate} {a : Candidate}
    (above : ∀ b ∈ stronger, a.priority < b.priority) (below : ∀ b ∈ others, b.priority ≤ a.priority) :
    foremost (stronger ++ a :: others) = (foremost (stronger ++ others)).offeredBefore a := by
  have head : ∀ n : Nat, ((others[n]?).getD Pair.empty.top).priority ≤ a.priority := by
    intro n
    cases h : others[n]? with
    | none => exact Nat.zero_le _
    | some b => exact below b (List.mem_of_getElem? h)
  match stronger, above with
  | [], _ =>
    have weaker : ¬a.priority < (foremost others).top.priority := Nat.not_lt.2 (head 0)
    refine Eq.trans ?_ (if_neg weaker).symm
    cases others <;> rfl
  | [b], above =>
    have beats : a.priority < (foremost (b :: others)).top.priority := above b List.mem_cons_self
    have weaker : ¬a.priority < (foremost (b :: others)).second.priority := by
      refine Nat.not_lt.2 (le_trans (Nat.le_of_eq ?_) (head 0))
      cases others <;> rfl
    exact ((if_pos beats).trans (if_neg weaker)).symm
  | b :: d :: rest, above =>
    have beats : a.priority < (foremost (b :: d :: (rest ++ others))).top.priority := above b List.mem_cons_self
    have beatsToo : a.priority < (foremost (b :: d :: (rest ++ others))).second.priority :=
      above d (List.mem_cons_of_mem b List.mem_cons_self)
    exact ((if_pos beats).trans (if_pos beatsToo)).symm

/-- The order of R12: higher priorities first. -/
def byPriority (a b : Candidate) : Bool := decide (b.priority ≤ a.priority)

theorem foldl_insert_foremost {cs : List Candidate} (offers : ∀ c ∈ cs, 1 ≤ c.priority) :
    cs.foldl Pair.insert Pair.empty = foremost (cs.mergeSort byPriority) := by
  have trans : ∀ a b c, byPriority a b = true → byPriority b c = true → byPriority a c = true := by
    simp only [byPriority, decide_eq_true_eq]
    omega
  have total : ∀ a b, (byPriority a b || byPriority b a) = true := by
    simp only [byPriority, Bool.or_eq_true, decide_eq_true_eq]
    omega
  induction cs with
  | nil => rw [List.mergeSort_nil]; rfl
  | cons a rest ih =>
    obtain ⟨offer, offers⟩ := List.forall_mem_cons.1 offers
    obtain ⟨stronger, others, sorted, sortedRest, above⟩ := List.mergeSort_cons trans total a rest
    have ordered := List.pairwise_mergeSort trans total (a :: rest)
    rw [sorted] at ordered
    have below := (List.pairwise_cons.1 (List.pairwise_append.1 ordered).2.1).1
    have first : Pair.empty.insert a = Pair.empty.offeredBefore a :=
      (if_pos offer).trans (if_neg (Nat.not_lt_zero _)).symm
    rw [List.foldl_cons, first, foldl_insert_offeredBefore, ih offers, sorted, sortedRest]
    refine (foremost_offeredBefore (fun b hb => ?_) fun b hb => of_decide_eq_true (below b hb)).symm
    simpa [byPriority] using above b hb

/-- Settles O51: the pair is that of the two foremost of the offers in the stable order of R12. -/
theorem pairKeepsTheTwoStrongestOffers : Obligations.PairKeepsTheTwoStrongestOffers := by
  rintro cs sorted offers rfl
  rw [foldl_insert_foremost offers]
  exact ⟨rfl, rfl⟩

end

end Sys2Proof.Machine
end

section
/-! SUPPORT. The picture's cells that are not merged (R71, R87, R174) and departures (R110 to R113). -/
namespace Sys2Proof.Machine

section
variable {s t u : State}

/-! ## Returns at the origin -/

theorem OutEntry.isReturn_iff (e : OutEntry) (frame : Half) (line span : Nat) :
    e.isReturn frame line span = true ↔ e.state = .inFlight ∧ e.frame = frame ∧ e.line = line ∧ e.span = span := by
  simp only [OutEntry.isReturn, Bool.and_eq_true, beq_iff_eq, and_assoc]

theorem matchReturn_none {frame : Half} {line span : Nat} {es : List OutEntry}
    (stray : ∀ e ∈ es, ¬(e.state = .inFlight ∧ e.frame = frame ∧ e.line = line ∧ e.span = span)) (colours : List Colour) :
    matchReturn frame line span colours es = none := by
  induction es with
  | nil => rfl
  | cons e rest ih =>
    obtain ⟨other, others⟩ := List.forall_mem_cons.1 stray
    rw [matchReturn, if_neg (other ∘ (e.isReturn_iff frame line span).1), ih others]

/-- The first entry in flight that a return names is resolved, those in flight before it are lost (R87). -/
theorem matchReturn_eq {frame : Half} {line span : Nat} {pre post : List OutEntry} {e : OutEntry}
    (before : ∀ d ∈ pre, ¬(d.state = .inFlight ∧ d.frame = frame ∧ d.line = line ∧ d.span = span))
    (named : e.state = .inFlight ∧ e.frame = frame ∧ e.line = line ∧ e.span = span) (colours : List Colour) :
    matchReturn frame line span colours (pre ++ e :: post) =
      some
        (pre.map (fun d => if d.state = .inFlight then { d with state := .lost } else d) ++
            { e with state := .resolved colours } :: post,
          pre.countP (fun d => d.state == .inFlight)) := by
  induction pre with
  | nil => exact if_pos ((e.isReturn_iff frame line span).2 named)
  | cons d rest ih =>
    obtain ⟨other, others⟩ := List.forall_mem_cons.1 before
    rw [List.cons_append, matchReturn, if_neg (other ∘ (d.isReturn_iff frame line span).1), ih others]
    dsimp only
    by_cases flies : d.state = .inFlight
    · rw [if_pos flies, List.map_cons, if_pos flies,
        List.countP_cons_of_pos (p := fun d : OutEntry => d.state == .inFlight) (beq_iff_eq.2 flies)]
      rfl
    · rw [if_neg flies, List.map_cons, if_neg flies,
        List.countP_cons_of_neg (p := fun d : OutEntry => d.state == .inFlight) (flies ∘ beq_iff_eq.1)]
      rfl

theorem State.blendValues_committed {k : Committed} (held : s.ring.committed = some k) :
    s.blendValues = { mode := k.mode, backdrop := k.backdrop, cover := k.backdropCover } := by
  rw [State.blendValues, held]

/-- Settles O33: by the entry that the return names. -/
theorem returnsResolveTheirEntry : Obligations.ReturnsResolveTheirEntry := by
  rintro cell s k m v hears run role held same rfl rfl
  have arrives : ∀ engine, s.origin.returned s.blendValues (readMerge cell) = engine →
      exec (.merge cell) s = .next { s.heard with origin := engine } := by
    rintro engine rfl
    exact next_arrive hears _ (s.heard.filterPicture_origin run same role _ _)
  rw [State.blendValues_committed held] at arrives
  refine ⟨fun stray => arrives _ ?_, fun pre e post outstanding named before => arrives _ ?_⟩
  · rw [OriginEngine.returned, matchReturn_none stray]
  · rw [OriginEngine.returned, outstanding, matchReturn_eq before named]

/-! ## RESULTs -/

/-- The tap unit does not look at the receiver. -/
theorem State.resultInFrame_setRx (s : State) (r : Receiver) (d : ResultData) :
    (s.setRx r).resultInFrame d = (s.resultInFrame d).setRx r := by
  have format : (s.setRx r).format = s.format := rfl
  unfold State.resultInFrame
  simp only [format, State.setRx_tap]
  split
  · rfl
  · split <;> rfl

theorem State.tapResult_setRx (s : State) (r : Receiver) (d : ResultData) :
    (s.setRx r).tapResult d = (s.tapResult d).setRx r := by
  have format : (s.setRx r).format = s.format := rfl
  have opened : (s.setRx r).openImplicit d.frame = (s.openImplicit d.frame).setRx r := rfl
  unfold State.tapResult
  simp only [format, State.setRx_tap, opened, State.resultInFrame_setRx]
  split_ifs <;> rfl

/-- Settles O34: the tap takes the RESULT as it stands before the cell, and the cell goes on. -/
theorem resultsReachTheTapAndGoOn : Obligations.ResultsReachTheTapAndGoOn := by
  intro cell s hears run role same
  obtain ⟨v, tapped, shape⟩ := s.tapResult_shape (readResult cell)
  have member : s.heard.ring.role ≠ .origin := by rw [show s.heard.ring.role = .member from role]; nofun
  refine ⟨v, _, next_arrive hears _ (s.heard.filterPicture_member run same member _ _), shape, ?_⟩
  have heard : s.heard.tapResult (readResult cell) = s.heard.setTap v := by
    rw [show s.heard = s.setRx { s.rx with silence := some (s.now + 199) } from rfl, State.tapResult_setRx, tapped]
    rfl
  rw [State.resultAtMember, heard]
  exact State.forward_forwards _ cell

/-! ## BULLETINs -/

theorem modify_heard (p : Nat) (health : List HealthEntry) :
    health.modify p HealthEntry.heard = heardAt p health := by
  refine List.ext_getElem? fun i => ?_
  rw [heardAt, List.getElem?_modify, List.getElem?_mapIdx]
  refine congrArg (Option.map · health[i]?) (funext fun e => ?_)
  by_cases here : p = i
  · rw [if_pos here, if_pos here.symm]
    rfl
  · rw [if_neg here, if_neg (Ne.symm here)]

theorem State.senderListed_iff {k : Committed} (held : s.ring.committed = some k) (p : Nat) (sender : Byte) :
    s.senderListed p sender = true ↔ (k.roster[p]?).map RosterEntry.id = some sender := by
  unfold State.senderListed
  rw [held]
  dsimp only
  cases k.roster[p]? with
  | none => exact ⟨nofun, nofun⟩
  | some e => simp only [beq_iff_eq, Option.map_some, Option.some.injEq]

/-- Settles O35: the position tells the station's own BULLETIN, the roster a peer's. -/
theorem bulletinsAreRetiredOrPassedOn : Obligations.BulletinsAreRetiredOrPassedOn := by
  intro cell s k hears run held same
  have epoch : cellEpoch cell = s.heard.epoch := same.trans (State.epoch_committed held).symm
  have position : s.heard.position = some k.position := by
    rw [State.position, show s.heard.ring.committed = some k from held]
  have arrives : exec (.bulletin cell) s = .next (s.heard.bulletinArrives cell) := by
    by_cases role : s.heard.ring.role = .origin
    · exact next_arrive hears _ (s.heard.filterPicture_origin run epoch role _ _)
    · exact next_arrive hears _ (s.heard.filterPicture_member run epoch role _ _)
  have foreign : bulletinPosition cell ≠ k.position → ¬s.heard.position = some (bulletinPosition cell) := by
    rw [position, Option.some.injEq]
    exact Ne.symm
  rw [arrives, State.bulletinArrives]
  refine ⟨fun own => ?_, fun other listed => ?_, fun other unlisted => ?_⟩
  · rw [if_pos (position.trans (congrArg some own.symm))]
    by_cases awaited : s.bulletin.outstanding = some (bulletinFrame cell)
    · rw [if_pos awaited, if_pos (show s.heard.bulletin.outstanding = some (bulletinFrame cell) from awaited)]
      rfl
    · rw [if_neg awaited, if_neg (show ¬s.heard.bulletin.outstanding = some (bulletinFrame cell) from awaited)]
      rfl
  · rw [if_neg (foreign other), if_pos ((State.senderListed_iff (s := s.heard) held _ _).2 listed), State.recordHealth,
      modify_heard]
    exact ⟨_, rfl, State.forward_forwards _ cell⟩
  · rw [if_neg (foreign other), if_neg (unlisted ∘ (State.senderListed_iff (s := s.heard) held _ _).1)]

/-! ## The arbiter -/

theorem State.opportunity_eq {d : Departure} (h : s.choose = d) : s.opportunity = (s.setNow (s.now + 1)).depart d :=
  congrArg (s.setNow (s.now + 1)).depart h

theorem State.forwardHead_nil (h : s.tx.forward = []) : s.forwardHead = none := by
  rw [State.forwardHead, h]

theorem State.forwardHead_cons {cell : CellBytes} {rest : List CellBytes} (h : s.tx.forward = cell :: rest) :
    s.forwardHead = some (.forward cell rest) := by
  rw [State.forwardHead, h]

/-- The forward head comes first in ROLL, RUN and LOCKED RELAY (R110). -/
theorem State.choose_forward {cell : CellBytes} {rest : List CellBytes} (head : s.tx.forward = cell :: rest)
    (h : s.ring.state = .roll ∨ s.ring.state = .run ∨ (s.ring.state = .relay ∧ s.rx.lock = .locked)) :
    s.choose = .forward cell rest := by
  unfold State.choose
  rw [State.forwardHead_cons head]
  obtain roll | run | ⟨relay, locked⟩ := h
  · rw [roll]
    rfl
  · rw [run]
    cases s.ring.role <;> rfl
  · rw [relay, locked]
    rfl

/-- Settles O36: by the order of the arbiter. -/
theorem forwardHeadLeavesFirst : Obligations.ForwardHeadLeavesFirst := by
  refine ⟨fun s running silent => next_live running _ ?_, fun s cell rest running head state => next_live running _ ?_⟩
  · refine State.opportunity_eq (d := .silent) ?_
    unfold State.choose
    obtain dark | ⟨relay, unlocked⟩ := silent
    · rw [dark]
    · rw [relay]
      exact if_neg unlocked
  · exact State.opportunity_eq (State.choose_forward head state)

theorem State.outstandingHead_flying (h : ∀ e, s.origin.outstanding.head? = some e → e.state = .inFlight) :
    s.outstandingHead = none := by
  unfold State.outstandingHead OriginEngine.sendable
  cases outstanding : s.origin.outstanding with
  | nil => rfl
  | cons e rest =>
    dsimp only
    rw [if_pos (h e (by rw [outstanding]; rfl))]

/-- At a silent engine neither RESULT, FRAME nor MERGE can leave (R79, R83, R91). -/
theorem State.EngineSilent.nothing (h : s.EngineSilent) :
    s.outstandingHead = none ∧ s.origin.offeredFrame = none ∧ s.origin.offeredMerge = none := by
  obtain ⟨flying, held, full⟩ := h
  refine ⟨State.outstandingHead_flying flying, ?_, ?_⟩
  · unfold OriginEngine.offeredFrame
    cases ready : s.origin.readyFrame with
    | none => rfl
    | some f =>
      obtain ⟨e, he, other⟩ := held f ready
      exact if_neg fun all => other (beq_iff_eq.1 (List.all_eq_true.1 all e he))
  · refine Option.eq_none_iff_forall_not_mem.2 fun y offered => ?_
    obtain ⟨⟨ys, lines⟩, ready, room⟩ := OriginEngine.offeredMerge_eq_some offered
    exact Nat.not_le.2 room (full (by rw [lines]; nofun) ready)

/-- Where the launch head comes next, it or a PROBE leaves (R110). -/
theorem State.LaunchHeadNext.choose (h : s.LaunchHeadNext) : s.choose = orElse s.launchHead .probe := by
  obtain ⟨_, halt | ⟨roll, empty⟩ | ⟨run, empty, engine⟩⟩ := h <;> unfold State.choose
  · rw [halt]
  · rw [roll, State.forwardHead_nil empty]
    rfl
  · rw [run, State.forwardHead_nil empty]
    cases role : s.ring.role with
    | origin =>
      obtain ⟨noResult, noFrame, noMerge⟩ := (engine role).nothing
      rw [noResult, noFrame, noMerge]
      rfl
    | member => rfl
    | none => rfl

theorem State.LaunchHeadNext.choose_head (h : s.LaunchHeadNext) {c : LaunchCell} {rest : List LaunchCell}
    (head : s.tx.launch = c :: rest) : s.choose = .launch c rest := by
  rw [h.choose, State.launchHead, head]
  rfl

/-! ## PROBE cells -/

theorem State.ProbeNext.choose (h : s.ProbeNext) : s.choose = .probe := by
  obtain ⟨next, empty⟩ | ⟨_, listen⟩ | ⟨_, relay, locked, empty⟩ := h
  · rw [next.choose, State.launchHead, empty]
    rfl
  · unfold State.choose
    rw [listen]
  · unfold State.choose
    rw [relay, State.forwardHead_nil empty]
    exact if_pos locked

theorem State.ProbeNext.running (h : s.ProbeNext) : s.inReset = false := by
  obtain ⟨⟨running, _⟩, _⟩ | ⟨running, _⟩ | ⟨running, _⟩ := h <;> exact running

/-- A cell of a short body ends in unused bytes (R183). -/
theorem cellOf_eq {kind epoch : Byte} {body : List Byte} {n : Nat} (length : body.length + n = 332) :
    cellOf kind epoch body = [0xA7, 0x3C, kind, epoch] ++ body ++ List.replicate n 0 := by
  have rest : 336 - ([0xA7, 0x3C, kind, epoch] ++ body).length = n := by
    simp only [List.length_append, List.length_cons, List.length_nil]
    omega
  rw [cellOf, padTo, rest]

theorem probeRun_length (p : Nat) : (probeRun p).length = 24 := by
  rw [probeRun, List.length_map, List.length_range]

theorem probeCell_eq (p : Nat) :
    probeCell p (probeRun p) =
      [0xA7, 0x3C, 0x01, 0x00, BitVec.ofNat 8 p] ++ (List.range 24).map (fun i => probeByte ((p + i) % 127)) ++
        List.replicate 307 0 := by
  rw [probeCell, cellOf_eq (n := 307) (by rw [List.length_cons, probeRun_length])]
  rfl

/-- Settles O37: the PROBE cell of the generator's position. -/
theorem probesFillIdleTime : Obligations.ProbesFillIdleTime := by
  intro s next
  refine next_live next.running _ ?_
  rw [State.opportunity_eq next.choose, ← probeCell_eq]
  rfl

/-! ## The launch head -/

theorem bulletinCell_eq (epoch : Byte) (b : Bulletin) :
    bulletinCell epoch b = [0xA7, 0x3C, 0x07, epoch] ++ b.bytes ++ List.replicate 296 0 :=
  cellOf_eq (n := 296) (by rw [b.bytes_laid.length])

/-- A BULLETIN departs, said once (R129, R173). -/
theorem State.bulletinDeparts_eq (s : State) (b : Bulletin) :
    s.bulletinDeparts b =
      { s with
        bulletin := { s.bulletin with outstanding := some b.frame, health := heardAt b.position s.bulletin.health }
        tap := s.tap.offer (.bulletin b.bytes)
        checker := { s.checker with capture := if b.counters.capture = none then s.checker.capture else none } } := by
  unfold State.bulletinDeparts State.recordHealth
  simp only [modify_heard]
  cases b.counters.capture <;> rfl

/-- Settles O38: by the kind of the launch head. -/
theorem launchHeadLeaves : Obligations.LaunchHeadLeaves := by
  intro s rest next
  have leaves : ∀ c, s.tx.launch = c :: rest → exec .departureOpportunity s =
      .next ((s.setNow (s.now + 1)).depart (.launch c rest)) := fun c head =>
    next_live next.1 _ (State.opportunity_eq (next.choose_head head))
  refine ⟨fun r head => ?_, fun c head => ?_, fun cell head => ?_, fun b head => ⟨b.bytes, b.bytes_laid, ?_⟩⟩
  · rw [leaves _ head]
    rfl
  · rw [leaves _ head]
    rfl
  · rw [leaves _ head]
    rfl
  · rw [leaves _ head, ← bulletinCell_eq, State.depart, State.launchDeparts, State.bulletinDeparts_eq]
    rfl

/-! ## RESULTs of the origin -/

theorem State.resultOf_for {k : Committed} (held : s.ring.committed = some k) (e : OutEntry) :
    ResultFor e k.backdrop (s.resultOf e) := by
  unfold State.resultOf
  rw [State.blendValues_committed held]
  cases state : e.state with
  | inFlight => exact ⟨rfl, rfl, rfl, fun _ h => (by rw [state] at h; cases h), fun h => (by rw [state] at h; cases h)⟩
  | resolved colours =>
    exact ⟨rfl, rfl, rfl, fun _ h => by rw [state] at h; cases h; exact ⟨rfl, rfl⟩, fun h => by rw [state] at h; cases h⟩
  | lost => exact ⟨rfl, rfl, rfl, fun _ h => (by rw [state] at h; cases h), fun _ => ⟨rfl, rfl⟩⟩

theorem State.choose_result (run : s.ring.state = .run) (role : s.ring.role = .origin) (empty : s.tx.forward = [])
    {e : OutEntry} {rest : List OutEntry} (head : s.origin.outstanding = e :: rest) (landed : e.state ≠ .inFlight) :
    s.choose = .result e rest := by
  have sendable : s.outstandingHead = some (.result e rest) := by
    unfold State.outstandingHead OriginEngine.sendable
    rw [head]
    dsimp only
    rw [if_neg landed]
  unfold State.choose
  rw [run, role, State.forwardHead_nil empty, sendable]
  rfl

/-- Settles O39: the head entry leaves, and the tap is handed its RESULT. -/
theorem resultsLeaveTheOrigin : Obligations.ResultsLeaveTheOrigin := by
  intro s e rest k running run role held empty head landed
  obtain ⟨v, tapped, shape⟩ :=
    State.tapResult_shape { s with now := s.now + 1, origin := { s.origin with outstanding := rest } } (s.resultOf e)
  refine ⟨s.resultOf e, v, State.resultOf_for held e, shape, next_live running _ ?_⟩
  rw [State.opportunity_eq (State.choose_result run role empty head landed), ← State.epoch_committed held]
  exact congrArg (fun w : State => w.send (sealCell (resultCell s.epoch (s.resultOf e)))) tapped

end

end Sys2Proof.Machine
end

section
/-! SUPPORT. FRAME marks (R63): what each owner has done, and the two events that bring one. -/
namespace Sys2Proof.Machine

section
variable {s t u b : State}

/-! ## The source port and the layers -/

/-- `n` refusals with one reason at the source port (R56). -/
def Source.refusing (v : Source) (why : Reason) (n : Nat) : Source :=
  { v with refused := satAdd v.refused n, lastReason := if n = 0 then v.lastReason else why }

theorem State.refuse_refusing (s : State) (why : Reason) (n : Nat) :
    s.refuse why n = s.setSource (s.source.refusing why n) :=
  s.refuse_eq why n

theorem Source.refuses_refusing (v : Source) (why : Reason) (n : Nat) : v.Refuses why n (v.refusing why n) := ⟨rfl, rfl⟩

/-- The source port at the FRAME mark of a frame, before the window check (R52, R58). -/
def State.sourceMarked (b : State) (frame : Half) : Source :=
  { b.source with
    stores := ⟨[], [], [], []⟩, mergeLine := none, lastMissed := ⟨none, none, none, none⟩
    refused := satAdd b.source.refused (countSlots b.source.stores (fun l => !l.read))
    lastReason := if countSlots b.source.stores (fun l => !l.read) = 0 then b.source.lastReason else .unused
    cues := b.source.cues ++
      ((List.range b.lead).map (fun y => ({ frame := frame, line := y } : Cue))).take (8 - b.source.cues.length) }

theorem State.sourceAtMark_marked (b : State) (frame : Half) :
    (b.setMerge { b.merge with lastTaken := some frame }).sourceAtMark =
      { b with merge := { b.merge with lastTaken := some frame }, source := b.sourceMarked frame } :=
  State.sourceAtMark_eq _

theorem countP_finRange_four (p : Fin 4 → Bool) :
    (List.finRange 4).countP p =
      (if p 0 = true then 1 else 0) + (if p 1 = true then 1 else 0) + (if p 2 = true then 1 else 0) +
        if p 3 = true then 1 else 0 := by
  rw [show List.finRange 4 = [0, 1, 2, 3] from rfl]
  simp only [List.countP_cons, List.countP_nil]
  ring

/-- Both tables after a FRAME mark that withdraws the layers of `withdrawn` (R28 to R30, R34). -/
structure Layers.Marked (l : Layers) (withdrawn : Fin 4 → Bool) (m : Layers) : Prop where
  shadow : ∀ i, m.shadow.get i = { l.shadow.get i with pending := false }
  active : ∀ i, m.active.get i =
    if (l.shadow.get i).pending then
      { setup := if withdrawn i then { (l.shadow.get i).setup with base := 0 } else (l.shadow.get i).setup
        current := (l.shadow.get i).setup.cover }
    else
      { setup := if withdrawn i then { (l.active.get i).setup with base := 0 } else (l.active.get i).setup
        current :=
          if (l.active.get i).setup.base = 0 ∨ withdrawn i = true then (l.active.get i).current
          else stepped (l.active.get i).current (l.active.get i).setup.target (l.active.get i).setup.step }

/-- The layer unit at a FRAME mark, said once: one BAD_WINDOW for each withdrawal (R29, R30). -/
theorem State.layersAtMark_marked {s b : State} (format : s.format = b.format) (layers : s.layers = b.layers) :
    ∃ m, b.layers.Marked b.withdraws m ∧
      s.layersAtMark b.merge.lastTaken.isNone =
        (s.setLayers m).refuse .badWindow ((List.finRange 4).countP b.withdraws) := by
  have each : ∀ i, layerAtMark b.format b.merge.lastTaken.isNone (b.layers.shadow.get i) (b.layers.active.get i) = _ :=
    fun i => layerAtMark_eq b.format _ _ _ (b.withdraws i) rfl
  unfold State.layersAtMark
  dsimp only
  rw [format, layers]
  refine ⟨_, ⟨fun i => ?_, fun i => ?_⟩, congrArg (State.refuse _ _) ?_⟩
  · match i with
    | 0 => exact congrArg Prod.fst (each 0)
    | 1 => exact congrArg Prod.fst (each 1)
    | 2 => exact congrArg Prod.fst (each 2)
    | 3 => exact congrArg Prod.fst (each 3)
  · match i with
    | 0 => exact congrArg (fun x => x.2.1) (each 0)
    | 1 => exact congrArg (fun x => x.2.1) (each 1)
    | 2 => exact congrArg (fun x => x.2.1) (each 2)
    | 3 => exact congrArg (fun x => x.2.1) (each 3)
  · have withdrawals : ∀ i, (layerAtMark b.format b.merge.lastTaken.isNone (b.layers.shadow.get i)
        (b.layers.active.get i)).2.2 = if b.withdraws i = true then 1 else 0 := fun i => by rw [each i]
    rw [countP_finRange_four, ← withdrawals 0, ← withdrawals 1, ← withdrawals 2, ← withdrawals 3]
    rfl

/-! ## The station once its picture is ready for the frame -/

/-- The station at a FRAME mark when merge stage, source port, layer unit and ring controller have acted (R63, R151). -/
def State.pictureMarked (b : State) (frame : Half) (m : Layers) : State :=
  { b with
    merge := { b.merge with lastTaken := some frame }
    source := (b.sourceMarked frame).refusing .badWindow ((List.finRange 4).countP b.withdraws)
    layers := m
    ring := { b.ring with
      firstFrame := if b.ring.role = .member then none else b.ring.firstFrame
      frameMissing :=
        if b.ring.role = .member then b.after (frameMissingPeriods b.format) else b.ring.frameMissing } }

theorem State.ringAtMark_eq (s : State) :
    s.ringAtMark =
      { s with
        ring := { s.ring with
          firstFrame := if s.ring.role = .member then none else s.ring.firstFrame
          frameMissing :=
            if s.ring.role = .member then s.after (frameMissingPeriods s.format) else s.ring.frameMissing } } := by
  unfold State.ringAtMark
  by_cases member : s.ring.role = .member
  · simp only [if_pos member]
    rfl
  · simp only [if_neg member]

/-- A FRAME mark, said once (R63). -/
theorem State.takeFrameMark_eq (b : State) (frame : Half) :
    ∃ m, b.layers.Marked b.withdraws m ∧
      b.takeFrameMark frame =
        (((b.pictureMarked frame m).tapAtMark b frame).bulletinAtMark b frame).clearFrameErrors := by
  obtain ⟨m, marked, layers⟩ := State.layersAtMark_marked (b := b)
    (s := { b with merge := { b.merge with lastTaken := some frame }, source := b.sourceMarked frame }) rfl rfl
  refine ⟨m, marked, ?_⟩
  unfold State.takeFrameMark
  dsimp only
  rw [State.sourceAtMark_marked, layers, State.refuse_refusing, State.ringAtMark_eq]
  rfl

/-- The station that has taken a FRAME mark, given its layers, the free choices used, its tap and its bulletin. -/
def State.frameMarked (b : State) (frame : Half) (m : Layers) (n : Nat) (v : Tap) (x : Bulletin) : State :=
  { b with
    merge := { b.merge with lastTaken := some frame }
    source := (b.sourceMarked frame).refusing .badWindow ((List.finRange 4).countP b.withdraws)
    layers := m
    ring := (b.pictureMarked frame m).ring
    checker := { b.checker with frameErrors := 0 }
    filter := { b.filter with cellErrors := 0 }
    tap := v
    tx := { b.tx with launch := placeIn (.bulletin x) b.tx.launch }
    bulletin :=
      { health := b.bulletin.health.map HealthEntry.aged, outstanding := none
        lost := if b.bulletin.outstanding = none then b.bulletin.lost else satInc b.bulletin.lost
        skipped := if queuedKind .bulletin b.tx.launch then satInc b.bulletin.skipped else b.bulletin.skipped }
    freeCount := n }

/-- What follows a bulletin that was built changes four blocks and the count of free choices (R102, R125, R172). -/
theorem State.bulletin_placed (s : State) (n : Nat) (x : Bulletin) (v : BulletinUnit) :
    (((s.setFreeCount n).place (.bulletin x)).setBulletin v).clearFrameErrors =
      { s with
        checker := { s.checker with frameErrors := 0 }
        filter := { s.filter with cellErrors := 0 }
        tx := { s.tx with launch := placeIn (.bulletin x) s.tx.launch }
        bulletin := v
        freeCount := n } :=
  rfl

/-- A FRAME mark, said once with the tap and the bulletin it makes (R165, R172; log 9). -/
theorem State.takeFrameMark_marked (b : State) (frame : Half) :
    ∃ m n v drops, b.layers.Marked b.withdraws m ∧ v = ((b.pictureMarked frame m).tapAtMark b frame).tap ∧
      (drops = b.tap.drops ∨ drops = v.drops) ∧
      b.takeFrameMark frame =
        b.frameMarked frame m n v (((b.pictureMarked frame m).setTap v).bulletinFor b frame drops) := by
  obtain ⟨m, marked, taken⟩ := b.takeFrameMark_eq frame
  obtain ⟨v, tap, _⟩ := (b.pictureMarked frame m).tapAtMark_tap b frame
  have same : ((b.pictureMarked frame m).tapAtMark b frame).tap = v := congrArg State.tap tap
  rw [tap] at taken
  obtain ⟨n, drops, chosen, built⟩ := ((b.pictureMarked frame m).setTap v).bulletinAtMark_eq b frame
  refine ⟨m, n, v, drops, marked, same.symm, chosen, ?_⟩
  rw [taken, built, State.bulletin_placed]
  generalize State.bulletinFor _ b frame drops = x
  rfl

/-! ## The marks of the statements -/

theorem State.after_frameMissing (s : State) (f : Format) :
    s.after (frameMissingPeriods f) = some (s.now + (50000000 + rateOf f.rate - 1) / rateOf f.rate) := by
  unfold State.after frameMissingPeriods
  rw [framesPerSecond_eq]
  rfl

theorem State.pictureMarked_ring (b : State) (frame : Half) (m : Layers) :
    (b.pictureMarked frame m).ring =
      if b.ring.role = .member then
        { b.ring with firstFrame := none
                      frameMissing := some (b.now + (50000000 + rateOf b.format.rate - 1) / rateOf b.format.rate) }
      else b.ring := by
  rw [← State.after_frameMissing]
  unfold State.pictureMarked
  by_cases member : b.ring.role = .member
  · simp only [if_pos member]
  · simp only [if_neg member]

theorem State.takeFrameMark_marks (b : State) (frame : Half) : b.MarkTaken frame (b.takeFrameMark frame) := by
  obtain ⟨m, n, v, drops, _, _, _, taken⟩ := b.takeFrameMark_marked frame
  rw [taken]
  exact ⟨rfl, rfl, ⟨rfl, rfl, rfl, rfl, rfl⟩, rfl, ⟨b.source.refusing .unused _, b.source.refuses_refusing _ _, rfl, rfl⟩,
    b.pictureMarked_ring frame m, rfl, rfl, rfl, rfl, rfl, rfl, rfl, rfl, rfl, rfl⟩

theorem State.takeFrameMark_layers (b : State) (frame : Half) (i : Fin 4) :
    b.LayerMarked (b.takeFrameMark frame) i := by
  obtain ⟨m, n, v, drops, marked, _, _, taken⟩ := b.takeFrameMark_marked frame
  rw [taken]
  exact ⟨marked.shadow i, fun pending => (marked.active i).trans (if_pos pending),
    fun idle => (marked.active i).trans (if_neg (Bool.eq_false_iff.1 idle))⟩

theorem State.takeFrameMark_taps (b : State) (frame : Half) : b.TapMarked frame (b.takeFrameMark frame) := by
  obtain ⟨m, n, v, drops, _, tap, _, taken⟩ := b.takeFrameMark_marked frame
  have marked := State.tapAtMark_marked (b.pictureMarked frame m) b frame rfl rfl
  unfold State.TapMarked at marked ⊢
  rw [← tap] at marked
  rw [taken]
  exact marked

theorem silentFrom_eq (health : List HealthEntry) (i : Nat) :
    silentFrom i health =
      ((List.range health.length).filter (fun p => (health[p]?).any HealthEntry.silent)).map (i + ·) := by
  induction health generalizing i with
  | nil => rfl
  | cons e rest ih =>
    have later : ((List.range rest.length).map Nat.succ).filter (fun p => ((e :: rest)[p]?).any HealthEntry.silent) =
        ((List.range rest.length).filter (fun p => (rest[p]?).any HealthEntry.silent)).map Nat.succ :=
      List.filter_map
    have shifted : ∀ l : List Nat, l.map (i + 1 + ·) = (l.map Nat.succ).map (i + ·) := fun l => by
      rw [List.map_map]
      exact List.map_congr_left fun p _ => by simp only [Function.comp]; omega
    rw [silentFrom, ih, shifted, List.length_cons, List.range_succ_eq_map, List.filter_cons, later]
    cases silent : e.silent <;> simp [silent]

theorem queuedKind_iff (k : LaunchKind) (q : List LaunchCell) : queuedKind k q = true ↔ ∃ c ∈ q, c.kind = k := by
  simp only [queuedKind, List.any_eq_true, beq_iff_eq]

theorem State.takeFrameMark_bulletin (b : State) (frame : Half) : b.BulletinMarked frame (b.takeFrameMark frame) := by
  obtain ⟨m, n, v, drops, _, _, chosen, taken⟩ := b.takeFrameMark_marked frame
  rw [taken]
  refine ⟨⟨((b.pictureMarked frame m).setTap v).bulletinFor b frame drops, ?_, placeIn_placed _ _⟩, ?_⟩
  · refine ⟨⟨rfl, rfl, rfl, rfl⟩, ⟨rfl, rfl⟩, ⟨rfl, rfl, rfl⟩, chosen, ⟨Layers.count_eq m, Layers.covers_get m⟩, ?_, ?_,
      rfl, rfl⟩
    · refine (silentFrom_eq b.bulletin.health 0).trans ?_
      simp only [Nat.zero_add, List.map_id']
    · change b.originCounters b.ring.role = _
      cases role : b.ring.role <;> rfl
  · simp only [← queuedKind_iff]
    rfl

/-! ## The events that bring a mark -/

theorem State.MarkTaken.of_setTx {frame : Half} (h : b.MarkTaken frame t) (v : Transmitter) :
    b.MarkTaken frame (t.setTx v) :=
  ⟨h.merge, h.stores, h.lines, h.cues, h.refusals, h.ring, h.checker, h.filter, h.kept⟩

theorem State.LayerMarked.of_setTx {i : Fin 4} (h : b.LayerMarked t i) (v : Transmitter) : b.LayerMarked (t.setTx v) i :=
  ⟨h.shadow, h.activated, h.kept⟩

theorem State.TapMarked.of_setTx {frame : Half} (h : b.TapMarked frame t) (v : Transmitter) :
    b.TapMarked frame (t.setTx v) :=
  h

theorem State.BulletinMarked.of_setTx {frame : Half} (h : b.BulletinMarked frame t) {v : Transmitter}
    (launch : v.launch = t.tx.launch) : b.BulletinMarked frame (t.setTx v) := by
  obtain ⟨⟨x, built, placed⟩, unit⟩ := h
  refine ⟨⟨x, ⟨built.sender, built.frameCounts, built.sourceCounts, built.drops, built.layers, built.silent,
    built.originCounts, built.records⟩, ?_⟩, unit⟩
  rw [State.setTx_tx, launch]
  exact placed

theorem State.frameArrives_exec {cell : CellBytes} (h : s.FrameArrives cell) :
    exec (.frame cell) s = .next ((s.heard.takeFrameMark (cellFrame cell)).forward cell) := by
  obtain ⟨hears, run, role, same⟩ := h
  have member : s.heard.ring.role ≠ .origin := by rw [show s.heard.ring.role = .member from role]; nofun
  exact next_arrive hears _ (s.heard.filterPicture_member run same member _ _)

theorem frameCell_eq (epoch : Byte) (frame : Half) :
    frameCell epoch frame =
      [0xA7, 0x3C, 0x04, epoch, frame.extractLsb' 8 8, frame.extractLsb' 0 8] ++ List.replicate 330 0 :=
  cellOf_eq (n := 330) rfl

/-- The origin when the FRAME mark of its own FRAME comes (R79). -/
def State.frameLeft (s : State) : State :=
  (s.setNow (s.now + 1)).setOrigin { (s.setNow (s.now + 1)).origin with readyFrame := none }

theorem State.frameLaunches_exec {frame : Half} (h : s.FrameLaunches frame) :
    exec .departureOpportunity s =
      .next ((s.frameLeft.takeFrameMark frame).send (sealCell (frameCell s.epoch frame))) := by
  obtain ⟨running, run, role, empty, flying, ready, own⟩ := h
  have offered : s.origin.offeredFrame = some frame := by
    rw [OriginEngine.offeredFrame, ready]
    exact if_pos (List.all_eq_true.2 fun e he => beq_iff_eq.2 (own e he))
  have choice : s.choose = .frame frame := by
    unfold State.choose
    rw [run, role, State.forwardHead_nil empty, State.outstandingHead_flying flying, offered]
    rfl
  refine next_live running _ ((State.opportunity_eq choice).trans ?_)
  rw [State.depart, State.launchFrame, ← State.frameLeft]
  rfl

/-- Either event takes the mark and then moves queues of the transmitter alone, the launch queue kept. -/
theorem State.MarkEvent.exec {c : Instr} {frame : Half} (h : s.MarkEvent c frame b) :
    ∃ v : Transmitter, exec c s = .next ((b.takeFrameMark frame).setTx v) ∧
      v.launch = (b.takeFrameMark frame).tx.launch := by
  obtain ⟨cell, rfl, arrives, rfl, rfl⟩ | ⟨rfl, launches, left⟩ := h
  · obtain ⟨cells, overflow, forwards, _⟩ := (s.heard.takeFrameMark (cellFrame cell)).forward_tx cell
    have answers := State.frameArrives_exec arrives
    rw [forwards] at answers
    generalize s.heard.takeFrameMark (cellFrame cell) = marked at answers
    exact ⟨_, answers, rfl⟩
  · obtain rfl : b = s.frameLeft := left
    have answers := State.frameLaunches_exec launches
    generalize s.frameLeft.takeFrameMark frame = marked at answers
    exact ⟨_, answers, rfl⟩

/-- Settles O26: the mark is taken, and the transmitter's queues show the FRAME. -/
theorem frameMarkIsTaken : Obligations.FrameMarkIsTaken := by
  refine ⟨fun s cell arrives => ?_, fun s frame launches => ?_⟩
  · obtain ⟨q, tx⟩ := s.heard.takeFrameMark_tx (cellFrame cell)
    have marks := s.heard.takeFrameMark_marks (cellFrame cell)
    refine ⟨_, State.frameArrives_exec arrives, ?_⟩
    generalize s.heard.takeFrameMark (cellFrame cell) = marked at tx marks
    have same : marked.tx.forward = s.tx.forward := by rw [tx]; rfl
    by_cases room : s.tx.forward.length < 4
    · have forwards : marked.forward cell = marked.setTx { marked.tx with forward := marked.tx.forward ++ [cell] } :=
        if_pos (same ▸ room)
      rw [forwards, State.setTx_tx, tx]
      exact ⟨marks.of_setTx _, rfl, rfl, fun _ => ⟨rfl, rfl⟩, fun full => absurd room (Nat.not_lt.2 full)⟩
    · have forwards : marked.forward cell = marked.setTx { marked.tx with overflow := satInc marked.tx.overflow } :=
        if_neg (same ▸ room)
      rw [forwards, State.setTx_tx, tx]
      exact ⟨marks.of_setTx _, rfl, rfl, fun fits => absurd fits room, fun _ => ⟨rfl, rfl⟩⟩
  · obtain ⟨q, tx⟩ := s.frameLeft.takeFrameMark_tx frame
    have marks := s.frameLeft.takeFrameMark_marks frame
    obtain ⟨_, _, _, empty, _⟩ := id launches
    refine ⟨_, State.frameLaunches_exec launches, ?_⟩
    generalize s.frameLeft.takeFrameMark frame = marked at tx marks
    rw [State.send, State.setTx_tx, tx, frameCell_eq]
    exact ⟨marks.of_setTx _, empty, rfl, rfl, rfl⟩

/-- Settles O27: the layers of either event are those of the mark. -/
theorem frameMarkMovesTheLayers : Obligations.FrameMarkMovesTheLayers := by
  intro s c frame b event
  obtain ⟨v, answers, _⟩ := event.exec
  exact ⟨_, answers, fun i => (b.takeFrameMark_layers frame i).of_setTx v⟩

/-- Settles O28: the tap of either event is that of the mark. -/
theorem frameMarkMovesTheTap : Obligations.FrameMarkMovesTheTap := by
  intro s c frame b event
  obtain ⟨v, answers, _⟩ := event.exec
  exact ⟨_, answers, (b.takeFrameMark_taps frame).of_setTx v⟩

/-- Settles O29: neither event moves the launch queue beyond the mark. -/
theorem frameMarkBuildsTheBulletin : Obligations.FrameMarkBuildsTheBulletin := by
  intro s c frame b event
  obtain ⟨v, answers, launch⟩ := event.exec
  exact ⟨_, answers, (b.takeFrameMark_bulletin frame).of_setTx launch⟩

end

end Sys2Proof.Machine
end

section
/-! SUPPORT. Merging (R49 to R51, R55, R58, R67 to R69, R83, R84): the pairs a station makes, and the source port after
the merge of a span. -/
namespace Sys2Proof.Machine

section
variable {s t : State}

/-! ## The pairs of a cell -/

theorem foldl_insert_filterMap {ι : Type} (f : ι → Option Candidate) (l : List ι) (p : Pair) :
    (l.filterMap f).foldl Pair.insert p = l.foldl (fun q i => q.insert? (f i)) p := by
  induction l generalizing p with
  | nil => rfl
  | cons i rest ih =>
    cases offer : f i with
    | none =>
      rw [List.filterMap_cons_none offer, List.foldl_cons, offer]
      exact ih p
    | some c =>
      rw [List.filterMap_cons_some offer, List.foldl_cons, List.foldl_cons, offer]
      exact ih (p.insert c)

/-- At one position the layers' candidates are inserted in layer order (R9). -/
theorem mergePosition_eq (station : Byte) (active : Four ActiveEntry) (stores : Four (List Slot)) (x y : Nat) (p : Pair) :
    mergePosition station active stores x y p =
      ((List.finRange 4).filterMap (formCandidate station active stores x y)).foldl Pair.insert p := by
  rw [foldl_insert_filterMap]
  rfl

theorem mergeFrom_eq_mapIdx (station : Byte) (active : Four ActiveEntry) (stores : Four (List Slot)) (y x : Nat)
    (ps : List Pair) :
    mergeFrom station active stores y x ps =
      ps.mapIdx (fun i p => mergePosition station active stores (x + i) y p) := by
  induction ps generalizing x with
  | nil => rfl
  | cons p rest ih =>
    rw [List.mapIdx_cons, mergeFrom, ih (x + 1)]
    simp only [Nat.add_zero, Nat.add_assoc, Nat.add_comm 1]

/-- Candidates look at the stores through the slots of the line alone (R6). -/
theorem formCandidate_congr {stores others : Four (List Slot)} {y : Nat} {i : Fin 4}
    (same : findSlot (others.get i) y = findSlot (stores.get i) y) (station : Byte) (active : Four ActiveEntry) (x : Nat) :
    formCandidate station active others x y i = formCandidate station active stores x y i := by
  unfold formCandidate
  rw [same]

/-- The pairs the station makes are those the statements name, over any stores with the same slots of the line. -/
theorem State.mergedPairs_made {y : Nat}
    (stationId : t.stationId = s.stationId) (layers : t.layers = s.layers)
    (same : ∀ i, findSlot (t.source.stores.get i) y = findSlot (s.source.stores.get i) y) (span : Nat) (ps : List Pair) :
    t.mergedPairs span y ps = s.pairsMade span y ps := by
  have forms : ∀ x, formCandidate t.stationId t.layers.active t.source.stores x y =
      formCandidate s.stationId s.layers.active s.source.stores x y := fun x => by
    rw [stationId, layers]
    exact funext fun i => formCandidate_congr (same i) _ _ x
  unfold State.mergedPairs State.pairsMade State.offersAt
  rw [mergeFrom_eq_mapIdx]
  simp only [mergePosition_eq, forms]

/-! ## Releases of the line stores -/

/-- The slots of a line stay where only slots of lines before it are released. -/
theorem findSlot_releaseOf {p : Slot → Bool} {y : Nat} (keeps : ∀ k : Slot, k.line = y → p k = false) (store : List Slot) :
    findSlot (releaseOf p store) y = findSlot store y := by
  unfold findSlot releaseOf
  rw [List.find?_filter]
  refine congrArg (fun q => List.find? q store) (funext fun k => ?_)
  by_cases here : k.line = y
  · simp [here, keeps k here]
  · simp [here]

theorem any_releaseOf {p : Slot → Bool} {y : Nat} (keeps : ∀ k : Slot, k.line = y → p k = false) (store : List Slot) :
    (releaseOf p store).any (fun k => k.line == y) = store.any (fun k => k.line == y) := by
  rw [← List.isSome_find?, ← List.isSome_find?]
  exact congrArg Option.isSome (findSlot_releaseOf keeps store)

/-- Two runs of refusals with one reason are one. -/
theorem Source.refuses_twice (v : Source) (why : Reason) (n m : Nat) (w : Source) :
    v.Refuses why (n + m)
      { w with
        refused := satAdd (satAdd v.refused n) m
        lastReason := if m = 0 then (if n = 0 then v.lastReason else why) else why } := by
  refine ⟨satAdd_satAdd _ _ _, ?_⟩
  dsimp only
  by_cases none : m = 0
  · rw [if_pos none, none, Nat.add_zero]
  · rw [if_neg none, if_neg fun sum => none (Nat.add_eq_zero_iff.1 sum).2]

/-- The source port after a release, each unread slot one UNUSED refusal (R49, R51). -/
def Source.releasing (v : Source) (p : Slot → Bool) : Source :=
  { v with stores := v.stores.map (releaseOf p) }.refusing .unused (countSlots v.stores (fun k => p k && !k.read))

theorem State.release_releasing (s : State) (p : Slot → Bool) : s.release p = s.setSource (s.source.releasing p) := by
  unfold State.release
  rw [State.refuse_refusing]
  simp only [unreadOf, ← List.countP_eq_length_filter]
  rfl

theorem Source.releasing_nothing (v : Source) : v.releasing (fun _ => false) = v := by
  have kept : ∀ store, releaseOf (fun _ => false) store = store := fun store => List.filter_true store
  have none : countSlots v.stores (fun k => false && !k.read) = 0 := by
    simp only [countSlots, Bool.false_and, List.countP_false, Function.const_apply]
  unfold Source.releasing
  rw [none, Source.refusing, satAdd_zero, if_pos rfl]
  simp only [Four.map, kept]

/-! ## One merged span, step by step -/

/-- The source port once the line has begun, where the cell begins it (R49, R67). -/
def State.sourceBegun (s : State) (begins : Bool) (y : Nat) : Source :=
  Source.releasing { s.source with mergeLine := if begins then some y else s.source.mergeLine }
    (fun k => begins && decide (k.line < y))

theorem State.begun_eq (s : State) (begins : Bool) (y : Nat) :
    (if begins = true then s.lineBegun y else s) = s.setSource (s.sourceBegun begins y) := by
  cases begins with
  | true => exact State.release_releasing _ _
  | false => exact congrArg s.setSource (Source.releasing_nothing s.source).symm

/-- What the merge of a span does to one store (R50). -/
def State.storeRead (s : State) (span y : Nat) (i : Fin 4) : List Slot :=
  if s.coversSpan span y i then markRead y (s.source.stores.get i) else s.source.stores.get i

/-- Whether an underrun of a layer is a new one (R55). -/
def State.missesLine (s : State) (span y : Nat) (i : Fin 4) : Bool :=
  s.runsShort span y i && s.source.lastMissed.get i != some y

theorem Four.set_get {α : Type} (f : Four α) (i : Fin 4) : f.set i (f.get i) = f :=
  match i with
  | 0 | 1 | 2 | 3 => rfl

/-- The read of one layer, said once (R50, R55). -/
theorem State.readStore_eq (s : State) (span y : Nat) (i : Fin 4) :
    s.readStore span y i =
      s.setSource { s.source with
        stores := s.source.stores.set i (s.storeRead span y i)
        lastMissed := s.source.lastMissed.set i (if s.runsShort span y i then some y else s.source.lastMissed.get i)
        missed := satAdd s.source.missed (if s.missesLine span y i then 1 else 0) } := by
  have covers : (s.layers.active.get i).takesPartInSpan span y = s.coversSpan span y i := rfl
  unfold State.readStore State.storeRead State.missesLine State.runsShort
  rw [covers]
  cases s.coversSpan span y i with
  | false => simp only [Bool.false_and, Bool.false_eq_true, if_false, Four.set_get, satAdd_zero]; rfl
  | true =>
    rw [if_pos rfl, if_pos rfl, Bool.true_and]
    cases found : findSlot (s.source.stores.get i) y with
    | some k =>
      have some : (s.source.stores.get i).any (fun k => k.line == y) = true := by
        rw [← List.isSome_find?]
        exact congrArg Option.isSome found
      rw [some]
      simp only [Bool.not_true, Bool.false_and, Bool.false_eq_true, if_false, Four.set_get, satAdd_zero]
    | none =>
      have none : (s.source.stores.get i).any (fun k => k.line == y) = false := by
        rw [← List.isSome_find?]
        exact congrArg Option.isSome found
      have unmarked : markRead y (s.source.stores.get i) = s.source.stores.get i := by
        refine (List.map_congr_left fun k hk => if_neg fun line => ?_).trans (List.map_id _)
        exact absurd (beq_iff_eq.2 line) (List.any_eq_false.1 none k hk)
      rw [none, unmarked, Four.set_get]
      dsimp only
      unfold State.underrun
      by_cases known : s.source.lastMissed.get i = .some y
      · rw [if_pos known, known]
        simp [satAdd_zero, ← known, Four.set_get]
        rfl
      · rw [if_neg known]
        simp [known, satInc]

/-- The source port after the reads of a span, layer by layer (R50, R55). -/
def State.storesRead (s : State) (span y : Nat) : Source :=
  { s.source with
    stores := ⟨s.storeRead span y 0, s.storeRead span y 1, s.storeRead span y 2, s.storeRead span y 3⟩
    lastMissed :=
      ⟨if s.runsShort span y 0 then some y else s.source.lastMissed.get 0,
        if s.runsShort span y 1 then some y else s.source.lastMissed.get 1,
        if s.runsShort span y 2 then some y else s.source.lastMissed.get 2,
        if s.runsShort span y 3 then some y else s.source.lastMissed.get 3⟩
    missed := satAdd s.source.missed ((List.finRange 4).countP (s.missesLine span y)) }

theorem State.readStores_eq (s : State) (span y : Nat) : s.readStores span y = s.setSource (s.storesRead span y) := by
  unfold State.readStores State.storesRead
  rw [State.readStore_eq s span y 0, State.readStore_eq _ span y 1, State.readStore_eq _ span y 2,
    State.readStore_eq _ span y 3, countP_finRange_four, ← satAdd_satAdd, ← satAdd_satAdd, ← satAdd_satAdd]
  rfl

theorem State.storesRead_stores (s : State) (span y : Nat) (i : Fin 4) :
    (s.storesRead span y).stores.get i = s.storeRead span y i :=
  match i with
  | 0 | 1 | 2 | 3 => rfl

theorem State.storesRead_lastMissed (s : State) (span y : Nat) (i : Fin 4) :
    (s.storesRead span y).lastMissed.get i = if s.runsShort span y i then some y else s.source.lastMissed.get i :=
  match i with
  | 0 | 1 | 2 | 3 => rfl

/-- The cue of a line start (R58). -/
def State.lineCue (s : State) (span y : Nat) (frame : Half) : List Cue :=
  if span = 0 ∧ y + s.lead < s.format.height ∧ s.source.cues.length < 8 then
    s.source.cues ++ [{ frame := frame, line := y + s.lead }]
  else s.source.cues

theorem State.lineCue_eq {frame : Half} (taken : s.merge.lastTaken = some frame) (span y : Nat) :
    (if span = 0 then s.lineStartCue y else s) = s.setSource { s.source with cues := s.lineCue span y frame } := by
  unfold State.lineCue State.lineStartCue State.issueCue
  rw [taken]
  by_cases first : span = 0
  · by_cases inside : y + s.lead < s.format.height
    · by_cases room : s.source.cues.length < 8
      · rw [if_pos first, if_pos inside, if_pos room, if_pos ⟨first, inside, room⟩]
        rfl
      · rw [if_pos first, if_pos inside, if_neg room, if_neg fun h => room h.2.2]
        rfl
    · rw [if_pos first, if_neg inside, if_neg fun h => inside h.2.1]
      rfl
  · rw [if_neg first, if_neg fun h => first h.1]
    rfl

/-- The end of a line, where the span is its last (R51). -/
theorem State.lineEnd_eq (s : State) (last : Bool) (y : Nat) :
    (if last = true then s.lineEnded y else s) =
      s.setSource (s.source.releasing (fun k => last && k.line == y)) := by
  cases last with
  | true => exact State.release_releasing _ _
  | false => exact congrArg s.setSource (Source.releasing_nothing s.source).symm

/-! ## One merged span, whole -/

/-- The source port after the merge of a span (R67, R68). -/
def State.sourceMerged (s : State) (begins : Bool) (frame : Half) (span y : Nat) : Source :=
  Source.releasing
    { (s.setSource (s.sourceBegun begins y)).storesRead span y with cues := s.lineCue span y frame }
    (fun k => decide (span + 1 = s.format.spans) && k.line == y)

theorem State.spanMerged_eq {frame : Half} (taken : s.merge.lastTaken = some frame) (begins : Bool) (span y : Nat) :
    (if begins = true then s.lineBegun y else s).spanMerged span y =
      s.setSource (s.sourceMerged begins frame span y) := by
  have ended := fun u : State => u.lineEnd_eq (decide (span + 1 = s.format.spans)) y
  simp only [decide_eq_true_eq] at ended
  rw [s.begun_eq begins y, State.spanMerged, State.readStores_eq]
  rw [State.lineCue_eq (by exact taken) span y]
  exact ended _

theorem State.coversSpan_begun (s : State) (begins : Bool) (span y : Nat) (i : Fin 4) :
    (s.setSource (s.sourceBegun begins y)).coversSpan span y i = s.coversSpan span y i :=
  rfl

/-- The slots of a line are not among those released as it begins (R49). -/
theorem before_keeps_line (begins : Bool) (y : Nat) (k : Slot) (here : k.line = y) :
    (begins && decide (k.line < y)) = false := by
  rw [here, decide_eq_false (Nat.lt_irrefl y), Bool.and_false]

theorem State.sourceBegun_stores (s : State) (begins : Bool) (y : Nat) (i : Fin 4) :
    (s.sourceBegun begins y).stores.get i =
      releaseOf (fun k => begins && decide (k.line < y)) (s.source.stores.get i) :=
  Four.get_map _ _ i

theorem State.runsShort_begun (s : State) (begins : Bool) (span y : Nat) (i : Fin 4) :
    (s.setSource (s.sourceBegun begins y)).runsShort span y i = s.runsShort span y i := by
  unfold State.runsShort
  rw [State.coversSpan_begun, State.setSource_source, State.sourceBegun_stores,
    any_releaseOf (before_keeps_line begins y)]

theorem State.storeRead_begun (s : State) (begins : Bool) (span y : Nat) (i : Fin 4) :
    (s.setSource (s.sourceBegun begins y)).storeRead span y i =
      ((s.source.stores.get i).filter (fun k => !(begins && decide (k.line < y)))).map
        (fun k => if s.coversSpan span y i = true ∧ k.line = y then { k with read := true } else k) := by
  unfold State.storeRead
  rw [State.coversSpan_begun, State.setSource_source, State.sourceBegun_stores]
  cases s.coversSpan span y i with
  | true => simp only [if_true, true_and]; rfl
  | false => simp only [Bool.false_eq_true, if_false, false_and, List.map_id']; rfl

/-- Marking slots read does not hide them from a release by line (R50, R51). -/
theorem releaseOf_map_read {p : Slot → Bool} (lines : ∀ k : Slot, p { k with read := true } = p k) (c : Slot → Prop)
    [DecidablePred c] (q : Slot → Bool) (l : List Slot) :
    releaseOf p ((l.filter q).map (fun k => if c k then { k with read := true } else k)) =
      (l.filter (fun k => q k && !p k)).map (fun k => if c k then { k with read := true } else k) := by
  have same : ((fun k => !p k) ∘ fun k => if c k then { k with read := true } else k) = fun k => !p k := by
    funext k
    by_cases h : c k
    · simp only [Function.comp_apply, if_pos h, lines]
    · simp only [Function.comp_apply, if_neg h]
  rw [releaseOf, List.filter_map, same, List.filter_filter]
  simp only [Bool.and_comm]

/-- The slots of a line that are still unread once the span is merged: those of layers that take no part in it. -/
theorem countP_unread {q : Slot → Bool} {y : Nat} (keeps : ∀ k : Slot, k.line = y → q k = true) (covers last : Bool)
    (l : List Slot) :
    ((l.filter q).map (fun k => if covers = true ∧ k.line = y then { k with read := true } else k)).countP
        (fun k => (last && k.line == y) && !k.read) =
      if last = true then l.countP (fun k => k.line == y && !k.read && !covers) else 0 := by
  rw [List.countP_map, List.countP_filter]
  cases last with
  | false =>
    rw [if_neg Bool.false_ne_true]
    refine List.countP_eq_zero.2 fun k _ => ?_
    simp
  | true =>
    rw [if_pos rfl]
    refine List.countP_congr fun k _ => ?_
    by_cases here : k.line = y
    · cases covers <;> simp [here, keeps k here]
    · simp [here]

/-- What the merge of a span does to the source port, said as the statements do. -/
theorem State.mergeMoves (s : State) (begins : Bool) (frame : Half) (span y : Nat) :
    s.MergeMoves begins frame y span (s.sourceMerged begins frame span y) where
  line := rfl
  stores i := by
    refine (Four.get_map _ _ i).trans ?_
    rw [State.storesRead_stores, State.storeRead_begun, releaseOf_map_read fun _ => rfl]
  lastMissed i := by
    refine (State.storesRead_lastMissed _ span y i).trans ?_
    rw [State.runsShort_begun]
    rfl
  missed := by
    refine congrArg (satAdd s.source.missed) (List.countP_congr fun i _ => ?_)
    rw [State.missesLine, State.runsShort_begun]
    exact Iff.rfl
  refusals := by
    have begun : countSlots s.source.stores (fun k => (begins && decide (k.line < y)) && !k.read) =
        if begins then countSlots s.source.stores (fun k => decide (k.line < y) && !k.read) else 0 := by
      cases begins with
      | true => rfl
      | false => simp [countSlots]
    have ended : countSlots ((s.setSource (s.sourceBegun begins y)).storesRead span y).stores
          (fun k => (decide (span + 1 = s.format.spans) && k.line == y) && !k.read) =
        if span + 1 = s.format.spans then
          ((List.finRange 4).map (fun i =>
            (s.source.stores.get i).countP (fun k => k.line == y && !k.read && !s.coversSpan span y i))).sum
        else 0 := by
      have each := fun i => (congrArg (List.countP _) ((State.storesRead_stores _ span y i).trans
        (s.storeRead_begun begins span y i))).trans (countP_unread
          (fun k here => by rw [before_keeps_line begins y k here, Bool.not_false])
          (s.coversSpan span y i) (decide (span + 1 = s.format.spans)) (s.source.stores.get i))
      simp only [decide_eq_true_eq] at each
      refine (congrArg₂ (· + ·) (congrArg₂ (· + ·) (congrArg₂ (· + ·) (each 0) (each 1)) (each 2)) (each 3)).trans ?_
      by_cases last : span + 1 = s.format.spans
      · simp only [if_pos last]
        rw [show List.finRange 4 = [0, 1, 2, 3] from rfl]
        simp only [List.map_cons, List.map_nil, List.sum_cons, List.sum_nil]
        ring
      · simp only [if_neg last]
    rw [← begun, ← ended]
    exact Source.refuses_twice _ _ _ _ _
  cue := rfl
  cueOut := ⟨rfl, rfl⟩

/-! ## MERGE cells at a member -/

theorem State.lineBehind_iff (s : State) (y : Nat) :
    s.lineBehind y = true ↔ ∃ l, s.source.mergeLine = some l ∧ y < l := by
  unfold State.lineBehind
  cases s.source.mergeLine with
  | none => simp
  | some l => simp

theorem State.outOfPlace_iff (s : State) (m : MergeCell) :
    s.outOfPlace m = true ↔
      s.merge.lastTaken ≠ some m.frame ∨ s.format.height ≤ m.line ∨ s.format.spans ≤ m.span ∨
        ∃ l, s.source.mergeLine = some l ∧ m.line < l := by
  simp only [State.outOfPlace, Bool.or_eq_true, bne_iff_ne, decide_eq_true_eq, State.lineBehind_iff, or_assoc]

theorem State.merge_exec {cell : CellBytes} (hears : s.Hears) (run : s.ring.state = .run) (role : s.ring.role = .member)
    (same : cellEpoch cell = s.epoch) (arrives : s.heard.mergeAtMember cell = t) : exec (.merge cell) s = .next t := by
  have member : s.heard.ring.role ≠ .origin := by rw [show s.heard.ring.role = .member from role]; nofun
  exact next_arrive hears _ ((s.heard.filterPicture_member run same member _ _).trans arrives)

/-- Settles O31: the cell is forwarded as it came. -/
theorem mergeCellsOutOfPlacePassUnmerged : Obligations.MergeCellsOutOfPlacePassUnmerged := by
  intro cell s hears run role same away
  exact ⟨_, State.merge_exec hears run role same (if_pos ((s.heard.outOfPlace_iff (readMerge cell)).2 away)),
    State.forward_forwards _ _⟩

/-! ## The bytes of a merged cell -/

theorem pairsBytes_length (ps : List Pair) : (pairsBytes ps).length = 10 * ps.length := by
  induction ps with
  | nil => rfl
  | cons p rest ih =>
    have step : pairsBytes (p :: rest) = p.bytes ++ pairsBytes rest := List.flatMap_cons
    rw [step, List.length_append, ih, List.length_cons, show p.bytes.length = 10 from rfl]
    ring

theorem readPairs_length (n : Nat) (bs : List Byte) : (readPairs n bs).length = n := by
  induction n generalizing bs with
  | zero => rfl
  | succ n ih => rw [readPairs, List.length_cons, ih]

theorem State.pairsMade_length (s : State) (span y : Nat) (ps : List Pair) :
    (s.pairsMade span y ps).length = ps.length :=
  List.length_mapIdx

/-- The pairs of a MERGE cell stand in its bytes 9 to 328 (R69). -/
theorem withPairs_eq (cell : CellBytes) {ps : List Pair} (all : ps.length = 32) :
    withPairs cell ps = cell.take 9 ++ pairsBytes ps ++ cell.drop 329 := by
  rw [withPairs, splice, pairsBytes_length, all]

theorem State.beginLine_eq (s : State) (y : Nat) :
    s.beginLine y = if (s.source.mergeLine != some y) = true then s.lineBegun y else s := by
  unfold State.beginLine
  by_cases same : s.source.mergeLine = some y
  · rw [if_pos same, if_neg (by simp [same])]
  · rw [if_neg same, if_pos (bne_iff_ne.2 same)]

theorem State.mergedPairs_begun (s : State) (begins : Bool) (span y : Nat) (ps : List Pair) :
    (if begins = true then s.lineBegun y else s).mergedPairs span y ps = s.pairsMade span y ps := by
  rw [s.begun_eq begins y]
  refine State.mergedPairs_made (s := s) (t := s.setSource (s.sourceBegun begins y)) rfl rfl (fun i => ?_) span ps
  rw [State.setSource_source, State.sourceBegun_stores, findSlot_releaseOf (before_keeps_line begins y)]

/-- Settles O32: the pairs are the station's, and the source port moves as at any merged span. -/
theorem mergeCellsInPlaceAreMerged : Obligations.MergeCellsInPlaceAreMerged := by
  intro cell s hears run role same taken line span ahead
  have inPlace : ¬s.heard.outOfPlace (readMerge cell) = true := by
    rw [State.outOfPlace_iff]
    rintro (other | below | beyond | ⟨l, current, behind⟩)
    · exact other taken
    · exact Nat.not_lt.2 below line
    · exact Nat.not_lt.2 beyond span
    · exact Nat.not_lt.2 (ahead l current) behind
  have all : (s.pairsMade (cellSpan cell) (cellLine cell) (readMerge cell).pairs).length = 32 :=
    (s.pairsMade_length _ _ _).trans (readPairs_length 32 _)
  have pairs := s.heard.mergedPairs_begun (s.heard.source.mergeLine != some (cellLine cell)) (cellSpan cell)
    (cellLine cell) (readMerge cell).pairs
  have state := State.spanMerged_eq (s := s.heard) taken (s.heard.source.mergeLine != some (cellLine cell))
    (cellSpan cell) (cellLine cell)
  rw [← State.beginLine_eq] at pairs state
  have merged : s.heard.mergeAtMember cell =
      (s.heard.setSource (s.sourceMerged (s.source.mergeLine != some (cellLine cell)) (cellFrame cell) (cellSpan cell)
        (cellLine cell))).forward
        (cell.take 9 ++ pairsBytes (s.pairsMade (cellSpan cell) (cellLine cell) (readMerge cell).pairs) ++
          cell.drop 329) := by
    rw [← withPairs_eq cell all]
    refine (if_neg inPlace).trans ?_
    exact congrArg₂ (fun (u : State) ps => u.forward (withPairs cell ps)) state pairs
  exact ⟨_, _, State.merge_exec hears run role same merged, s.mergeMoves _ _ _ _, State.forward_forwards _ _⟩

/-! ## Merge launches at the origin -/

theorem State.choose_merge {y : Nat} {ys : List Nat} (run : s.ring.state = .run) (role : s.ring.role = .origin)
    (empty : s.tx.forward = []) (flying : ∀ e, s.origin.outstanding.head? = some e → e.state = .inFlight)
    (room : s.origin.outstanding.length < 64) (ready : s.origin.readyFrame = none) (lines : s.origin.lines = y :: ys) :
    s.choose = .merge y := by
  have noFrame : s.origin.offeredFrame = none := by rw [OriginEngine.offeredFrame, ready]
  have offered : s.origin.offeredMerge = some y := by
    rw [OriginEngine.offeredMerge, lines, ready]
    exact if_pos room
  unfold State.choose
  rw [run, role, State.forwardHead_nil empty, State.outstandingHead_flying flying, noFrame, offered]
  rfl

/-- The engine after a merge launch of the head line, as one record (R84). -/
theorem OriginEngine.launched_eq {o : OriginEngine} {y : Nat} {ys : List Nat} {frame : Half}
    (lines : o.lines = y :: ys) (number : o.frameNumber = some frame) (spans now : Nat) :
    o.launched spans y now =
      { o with
        outstanding := o.outstanding ++
          [{ frame := frame, line := y, span := o.nextSpan, launch := now, state := .inFlight }]
        lines := if decide (o.nextSpan + 1 = spans) then ys else y :: ys
        nextSpan := if decide (o.nextSpan + 1 = spans) then 0 else o.nextSpan + 1 } := by
  unfold OriginEngine.launched
  simp only [number, lines, Option.getD_some, decide_eq_true_eq]
  by_cases last : o.nextSpan + 1 = spans
  · simp only [if_pos last]
    rfl
  · simp only [if_neg last, ← lines]

/-- What is left of a merge launch once the span is merged: the engine moves on and the cell leaves (R83, R84). -/
def State.spanLaunched (y span : Nat) (s : State) (pairs : List Pair) : State :=
  (s.setOrigin (s.origin.launched s.format.spans y s.now)).send
    (sealCell (MergeCell.bytes
      { epoch := s.epoch, frame := s.origin.frameNumber.getD 0, line := y, span := span, pairs := pairs }))

/-- A merge launch, said once (R83, R84). -/
theorem State.launchMerge_eq (y : Nat) {frame : Half} (taken : s.merge.lastTaken = some frame)
    (number : s.origin.frameNumber = some frame) :
    s.launchMerge y =
      { s with
        source := s.sourceMerged (s.origin.nextSpan == 0) frame s.origin.nextSpan y
        origin := s.origin.launched s.format.spans y s.now
        tx := { s.tx with
          out := .cell (sealCell (MergeCell.bytes
            { epoch := s.epoch, frame := frame, line := y, span := s.origin.nextSpan
              pairs := s.pairsMade s.origin.nextSpan y (List.replicate 32 Pair.empty) })) } } := by
  have pairs := s.mergedPairs_begun (s.origin.nextSpan == 0) s.origin.nextSpan y (List.replicate 32 Pair.empty)
  have state := State.spanMerged_eq taken (s.origin.nextSpan == 0) s.origin.nextSpan y
  simp only [beq_iff_eq] at pairs state
  have cell : s.origin.frameNumber.getD 0 = frame := by rw [number, Option.getD_some]
  have launch : s.launchMerge y = State.spanLaunched y s.origin.nextSpan
      ((if s.origin.nextSpan = 0 then s.lineBegun y else s).spanMerged s.origin.nextSpan y)
      ((if s.origin.nextSpan = 0 then s.lineBegun y else s).mergedPairs s.origin.nextSpan y
        (List.replicate 32 Pair.empty)) := rfl
  rw [launch, pairs, state, ← cell]
  rfl

/-- Settles O40: the head line's next span leaves with the origin's own candidates. -/
theorem mergeLaunchesLeaveTheOrigin : Obligations.MergeLaunchesLeaveTheOrigin := by
  rintro s y ys k frame span last running run role held empty flying room ready lines number taken rfl rfl
  refine ⟨_, s.mergeMoves _ _ _ _, next_live running _ ?_⟩
  rw [State.opportunity_eq (State.choose_merge run role empty flying room ready lines), State.depart,
    State.launchMerge_eq (s := s.setNow (s.now + 1)) y taken number,
    OriginEngine.launched_eq (o := (s.setNow (s.now + 1)).origin) lines number,
    ← State.format_committed held, ← State.epoch_committed held]
  rfl

end

end Sys2Proof.Machine
end

section
/-! SUPPORT. Cells as they leave and as the next station reads them (R97, R98, R100, R183), and the ROSTER that gains an
entry (R139 case 7). -/
namespace Sys2Proof.Machine

/-! ## Bytes of a run -/

theorem byteAt_append_right (a b : List Byte) (i : Nat) : byteAt (a ++ b) (a.length + i) = byteAt b i := by
  simp only [byteAt, List.getD_eq_getElem?_getD, List.getElem?_append_right (Nat.le_add_right _ _), Nat.add_sub_cancel_left]

theorem byteAt_append_left {a : List Byte} (b : List Byte) {i : Nat} (h : i < a.length) : byteAt (a ++ b) i = byteAt a i := by
  simp only [byteAt, List.getD_eq_getElem?_getD, List.getElem?_append_left h]

theorem byteAt_zeros (n i : Nat) : byteAt (List.replicate n 0) i = 0 := by
  rw [byteAt, List.getD_eq_getElem?_getD, List.getElem?_replicate]
  split <;> rfl

theorem wordBytes_join (w : Serial) :
    ((w.extractLsb' 16 16).extractLsb' 8 8 ++ (w.extractLsb' 16 16).extractLsb' 0 8 : Half) ++
      ((w.extractLsb' 0 16).extractLsb' 8 8 ++ (w.extractLsb' 0 16).extractLsb' 0 8 : Half) = w := by
  rw [halfBytes_join, halfBytes_join]
  apply BitVec.eq_of_toNat_eq
  rw [BitVec.toNat_append, BitVec.extractLsb'_toNat, BitVec.extractLsb'_toNat,
    ← Nat.shiftLeft_add_eq_or_of_lt (Nat.mod_lt _ (by decide)), Nat.shiftLeft_eq, Nat.shiftRight_eq_div_pow]
  have := w.isLt
  omega

theorem numBytes_toNat {n : Nat} (h : n < 65536) :
    ((BitVec.ofNat 16 n).extractLsb' 8 8 ++ (BitVec.ofNat 16 n).extractLsb' 0 8 : Half).toNat = n := by
  rw [halfBytes_join, BitVec.toNat_ofNat]
  exact Nat.mod_eq_of_lt h

theorem byteOf_toNat {n : Nat} (h : n < 256) : (byteOf n).toNat = n := by
  rw [byteOf, BitVec.toNat_ofNat]
  exact Nat.mod_eq_of_lt h

theorem flagBit_zero (b : Bool) : (flagBit 0 b).getLsbD 0 = b := by
  cases b <;> rfl

/-! ## Runs of items of one length -/

section
variable {α : Type} {bytes : α → List Byte} {k : Nat}

theorem flatMap_bytes_length (length : ∀ a, (bytes a).length = k) (items : List α) :
    (items.flatMap bytes).length = k * items.length := by
  induction items with
  | nil => rfl
  | cons a rest ih =>
    rw [List.flatMap_cons, List.length_append, length, ih, List.length_cons]
    ring

/-- The `n`-th item stands `k * n` bytes in. -/
theorem flatMap_bytes_at (length : ∀ a, (bytes a).length = k) {items : List α} {n : Nat} {a : α}
    (item : items[n]? = some a) : ∃ pre post, items.flatMap bytes = pre ++ bytes a ++ post ∧ pre.length = k * n := by
  induction items generalizing n with
  | nil => cases item
  | cons b rest ih =>
    cases n with
    | zero =>
      cases item
      exact ⟨[], rest.flatMap bytes, List.flatMap_cons, rfl⟩
    | succ n =>
      obtain ⟨pre, post, laid, offset⟩ := ih item
      refine ⟨bytes b ++ pre, post, ?_, ?_⟩
      · rw [List.flatMap_cons, laid, List.append_assoc, List.append_assoc, List.append_assoc]
      · rw [List.length_append, length, offset]
        ring

/-- A reader that takes an item of `k` bytes and goes on reads a run of items back. -/
theorem read_flatMap_bytes {readOne : List Byte → α} {readMany : Nat → List Byte → List α}
    (length : ∀ a, (bytes a).length = k) (zero : ∀ bs, readMany 0 bs = [])
    (succ : ∀ n bs, readMany (n + 1) bs = readOne bs :: readMany n (bs.drop k)) {items : List α}
    (each : ∀ a ∈ items, ∀ rest, readOne (bytes a ++ rest) = a) (tail : List Byte) :
    readMany items.length (items.flatMap bytes ++ tail) = items := by
  induction items with
  | nil => exact zero _
  | cons a rest ih =>
    obtain ⟨first, others⟩ := List.forall_mem_cons.1 each
    rw [List.flatMap_cons, List.append_assoc, List.length_cons, succ, first, List.drop_left' (length a), ih others]

end

theorem readColour_bytes (c : Colour) (rest : List Byte) : colourAt (c.bytes ++ rest) 0 = c := rfl

theorem readColours_bytes (cs : List Colour) (tail : List Byte) : readColours cs.length (coloursBytes cs ++ tail) = cs :=
  read_flatMap_bytes (bytes := Colour.bytes) (readMany := readColours) (readOne := fun bs => colourAt bs 0)
    (fun _ => rfl) (fun _ => rfl) (fun _ _ => rfl) (fun c _ => readColour_bytes c) tail

theorem readRollEntry_bytes (e : RollEntry) (rest : List Byte) : readRollEntry (e.bytes ++ rest) = e := by
  obtain ⟨id, serial, eligible, lastEpoch⟩ := e
  unfold readRollEntry
  rw [RollEntry.mk.injEq]
  exact ⟨rfl, wordBytes_join serial, flagBit_zero eligible, rfl⟩

theorem readRollEntries_bytes (es : List RollEntry) (tail : List Byte) :
    readRollEntries es.length (es.flatMap RollEntry.bytes ++ tail) = es :=
  read_flatMap_bytes (bytes := RollEntry.bytes) (readMany := readRollEntries)
    (fun _ => rfl) (fun _ => rfl) (fun _ _ => rfl) (fun e _ => readRollEntry_bytes e) tail

theorem readRosterEntry_bytes (e : RosterEntry) (rest : List Byte) : readRosterEntry (e.bytes ++ rest) = e := by
  obtain ⟨id, serial⟩ := e
  unfold readRosterEntry
  rw [RosterEntry.mk.injEq]
  exact ⟨rfl, wordBytes_join serial⟩

theorem readRosterEntries_bytes (es : List RosterEntry) (tail : List Byte) :
    readRosterEntries es.length (es.flatMap RosterEntry.bytes ++ tail) = es :=
  read_flatMap_bytes (bytes := RosterEntry.bytes) (readMany := readRosterEntries)
    (fun _ => rfl) (fun _ => rfl) (fun _ _ => rfl) (fun e _ => readRosterEntry_bytes e) tail

/-! ## Candidate pairs (Table 12-3) -/

/-- The first byte of a pair: solid flag, priority and layer. -/
theorem topByte_fields : ∀ (solid : Bool) (priority : BitVec 3) (layer : BitVec 2),
    (BitVec.ofBool solid ++ priority ++ (0#2 : BitVec 2) ++ layer : Byte).msb = solid ∧
      (BitVec.ofBool solid ++ priority ++ (0#2 : BitVec 2) ++ layer : Byte).extractLsb' 4 3 = priority ∧
      (BitVec.ofBool solid ++ priority ++ (0#2 : BitVec 2) ++ layer : Byte).extractLsb' 0 2 = layer := by
  decide +kernel

/-- The seventh byte of a pair: priority and cover of the second. -/
theorem secondByte_fields : ∀ (priority : BitVec 3) (cover : BitVec 5),
    (priority ++ cover : Byte).extractLsb' 5 3 = priority ∧ (priority ++ cover : Byte).extractLsb' 0 5 = cover := by
  decide +kernel

theorem readPair_bytes {p : Pair} (fits : p.Fits) (rest : List Byte) : readPair (p.bytes ++ rest) = p := by
  obtain ⟨⟨priority, colour, cover, solid, station, layer⟩, ⟨second, other, secondCover⟩⟩ := p
  obtain ⟨priorityFits, coverFits, layerFits, secondFits, secondCoverFits⟩ := fits
  dsimp only at priorityFits coverFits layerFits secondFits secondCoverFits
  obtain ⟨hSolid, hPriority, hLayer⟩ := topByte_fields solid (BitVec.ofNat 3 priority) (BitVec.ofNat 2 layer)
  obtain ⟨hSecond, hCover⟩ := secondByte_fields (BitVec.ofNat 3 second) (secondCoverBits secondCover)
  have held : secondCoverBits secondCover = BitVec.ofNat 5 secondCover := if_pos secondCoverFits
  unfold readPair
  rw [Pair.mk.injEq, Candidate.mk.injEq, Second.mk.injEq]
  refine ⟨⟨?_, rfl, byteOf_toNat coverFits, hSolid, rfl, ?_⟩, ?_, rfl, ?_⟩
  · refine (congrArg BitVec.toNat hPriority).trans ?_
    rw [BitVec.toNat_ofNat]
    exact Nat.mod_eq_of_lt priorityFits
  · refine (congrArg BitVec.toNat hLayer).trans ?_
    rw [BitVec.toNat_ofNat]
    exact Nat.mod_eq_of_lt layerFits
  · refine (congrArg BitVec.toNat hSecond).trans ?_
    rw [BitVec.toNat_ofNat]
    exact Nat.mod_eq_of_lt secondFits
  · refine (congrArg BitVec.toNat hCover).trans ?_
    rw [held, BitVec.toNat_ofNat]
    exact Nat.mod_eq_of_lt secondCoverFits

theorem readPairs_bytes {ps : List Pair} (fit : ∀ p ∈ ps, p.Fits) (tail : List Byte) :
    readPairs ps.length (pairsBytes ps ++ tail) = ps :=
  read_flatMap_bytes (bytes := Pair.bytes) (readMany := readPairs)
    (fun _ => rfl) (fun _ => rfl) (fun _ _ => rfl) (fun p hp => readPair_bytes (fit p hp)) tail

/-! ## Sealed cells (R98) -/

theorem sealCell_eq {cell : CellBytes} (length : cell.length = 336) :
    sealCell cell = cell.take 334 ++ halfBytes (cellCrc cell) := by
  have after : cell.drop (334 + (halfBytes (cellCrc cell)).length) = [] := List.drop_eq_nil_of_le length.le
  rw [sealCell, splice, after, List.append_nil]

theorem take_sealCell {cell : CellBytes} (length : cell.length = 336) : (sealCell cell).take 334 = cell.take 334 := by
  rw [sealCell_eq length]
  exact List.take_left' (by rw [List.length_take, length]; rfl)

theorem crcGood_sealCell {cell : CellBytes} (length : cell.length = 336) : crcGood (sealCell cell) = true := by
  have sum : cellCrc (sealCell cell) = cellCrc cell := by
    unfold cellCrc
    rw [take_sealCell length]
  have body : (cell.take 334).length = 334 := by rw [List.length_take, length]; rfl
  have placed : halfAt (sealCell cell) 334 = cellCrc cell := by
    have at_end := fun i => byteAt_append_right (cell.take 334) (halfBytes (cellCrc cell)) i
    rw [body, ← sealCell_eq length] at at_end
    rw [halfAt, at_end 0, at_end 1]
    exact halfBytes_join _
  rw [crcGood, sum, placed, beq_self_eq_true]

/-- What stands before the CRC stays as a cell is sealed. -/
theorem sealCell_append {pre rest : List Byte} (length : (pre ++ rest).length = 336) (room : pre.length ≤ 334) :
    ∃ tail, sealCell (pre ++ rest) = pre ++ tail := by
  refine ⟨rest.take (334 - pre.length) ++ halfBytes (cellCrc (pre ++ rest)), ?_⟩
  rw [sealCell_eq length, List.take_append, List.take_of_length_le room, List.append_assoc]

/-- A cell whose body leaves room for the CRC keeps header and body as it is sealed. -/
theorem cellOf_sent {kind epoch : Byte} {body : List Byte} (room : body.length ≤ 330) :
    (cellOf kind epoch body).length = 336 ∧ (cellOf kind epoch body).take 4 = [0xA7, 0x3C, kind, epoch] ∧
      ∃ tail, sealCell (cellOf kind epoch body) = [0xA7, 0x3C, kind, epoch] ++ body ++ tail := by
  have laid : cellOf kind epoch body = [0xA7, 0x3C, kind, epoch] ++ body ++ List.replicate (332 - body.length) 0 :=
    cellOf_eq (by omega)
  have length : ([0xA7, 0x3C, kind, epoch] ++ body ++ List.replicate (332 - body.length) 0).length = 336 := by
    simp only [List.length_append, List.length_cons, List.length_nil, List.length_replicate]
    omega
  have before : ([0xA7, 0x3C, kind, epoch] ++ body).length ≤ 334 := by
    simp only [List.length_append, List.length_cons, List.length_nil]
    omega
  rw [laid]
  exact ⟨length, rfl, sealCell_append length before⟩

/-! ## Each kind of cell, read back -/

def MergeCell.body (m : MergeCell) : List Byte :=
  halfBytes m.frame ++ numBytes m.line ++ [byteOf m.span] ++ pairsBytes m.pairs

theorem MergeCell.bytes_eq (m : MergeCell) : m.bytes = cellOf kindMerge m.epoch m.body := rfl

theorem MergeCell.body_length {m : MergeCell} (fits : m.Fits) : m.body.length = 325 := by
  obtain ⟨_, _, pairs, _⟩ := fits
  rw [MergeCell.body, List.length_append, pairsBytes_length, pairs]
  rfl

theorem readMerge_body {m : MergeCell} (fits : m.Fits) (tail : List Byte) :
    readMerge ([0xA7, 0x3C, kindMerge, m.epoch] ++ m.body ++ tail) = m := by
  obtain ⟨epoch, frame, line, span, pairs⟩ := m
  obtain ⟨lineFits, spanFits, many, fit⟩ := fits
  unfold readMerge
  rw [MergeCell.mk.injEq]
  refine ⟨rfl, halfBytes_join frame, numBytes_toNat lineFits, byteOf_toNat spanFits, ?_⟩
  have read := readPairs_bytes fit tail
  rw [many] at read
  exact read

def ResultData.body (d : ResultData) : List Byte :=
  halfBytes d.frame ++ numBytes d.line ++ [byteOf d.span, flagBit 0 d.lost] ++ coloursBytes d.colours

theorem resultCell_eq (epoch : Byte) (d : ResultData) : resultCell epoch d = cellOf kindResult epoch d.body := rfl

theorem ResultData.body_length {d : ResultData} (fits : d.Fits) : d.body.length = 102 := by
  obtain ⟨_, _, colours⟩ := fits
  rw [ResultData.body, List.length_append, coloursBytes_length, colours]
  rfl

theorem readResult_body (epoch : Byte) {d : ResultData} (fits : d.Fits) (tail : List Byte) :
    readResult ([0xA7, 0x3C, kindResult, epoch] ++ d.body ++ tail) = d := by
  obtain ⟨frame, line, span, lost, colours⟩ := d
  obtain ⟨lineFits, spanFits, many⟩ := fits
  unfold readResult
  rw [ResultData.mk.injEq]
  refine ⟨halfBytes_join frame, numBytes_toNat lineFits, byteOf_toNat spanFits, flagBit_zero lost, ?_⟩
  have read := readColours_bytes colours tail
  rw [many] at read
  exact read

def RosterCell.body (r : RosterCell) : List Byte :=
  r.originator :: wordBytes r.serial ++ [r.launch, byteOf r.count] ++ r.entries.flatMap RollEntry.bytes

theorem RosterCell.bytes_eq (r : RosterCell) : r.bytes = cellOf kindRoster 0 r.body := rfl

theorem RosterCell.body_length {r : RosterCell} (fits : r.Fits) : r.body.length = 7 + 7 * r.count := by
  rw [RosterCell.body, List.length_append, flatMap_bytes_length (k := 7) (fun _ => rfl), fits.1]
  rfl

theorem readRoster_body {r : RosterCell} (fits : r.Fits) (tail : List Byte) :
    readRoster ([0xA7, 0x3C, kindRoster, 0] ++ r.body ++ tail) = r := by
  obtain ⟨originator, serial, launch, count, entries⟩ := r
  obtain ⟨listed, few⟩ := fits
  obtain rfl : count = entries.length := listed
  have count : (byteOf entries.length).toNat = entries.length := byteOf_toNat (Nat.lt_of_le_of_lt few (by decide))
  unfold readRoster
  rw [RosterCell.mk.injEq]
  refine ⟨rfl, wordBytes_join serial, rfl, count, ?_⟩
  have within : min (byteOf entries.length).toNat 16 = entries.length := by
    rw [count]
    exact Nat.min_eq_left few
  exact (congrArg (fun n => readRollEntries n (entries.flatMap RollEntry.bytes ++ tail)) within).trans
    (readRollEntries_bytes entries tail)

def CommitCell.body (c : CommitCell) : List Byte :=
  [c.originId, byteOf c.format.spans] ++ numBytes c.format.height ++ [byteOf c.format.rate, byteOf c.modeCode] ++
    c.backdrop.bytes ++ [byteOf c.backdropCover, byteOf c.count] ++ c.entries.flatMap RosterEntry.bytes

theorem CommitCell.bytes_eq (c : CommitCell) : c.bytes = cellOf kindCommit c.epoch c.body := rfl

theorem CommitCell.body_length {c : CommitCell} (fits : c.Fits) : c.body.length = 11 + 5 * c.count := by
  obtain ⟨_, _, _, _, _, count, _⟩ := fits
  rw [CommitCell.body, List.length_append, flatMap_bytes_length (k := 5) (fun _ => rfl), count]
  rfl

theorem readCommit_body {c : CommitCell} (fits : c.Fits) (tail : List Byte) :
    readCommit ([0xA7, 0x3C, kindCommit, c.epoch] ++ c.body ++ tail) = c := by
  obtain ⟨epoch, originId, ⟨spans, height, rate⟩, modeCode, backdrop, backdropCover, count, entries⟩ := c
  obtain ⟨spansFit, heightFits, rateFits, modeFits, coverFits, listed, few⟩ := fits
  obtain rfl : count = entries.length := listed
  have count : (byteOf entries.length).toNat = entries.length := byteOf_toNat (Nat.lt_of_le_of_lt few (by decide))
  unfold readCommit
  rw [CommitCell.mk.injEq, Format.mk.injEq]
  refine ⟨rfl, rfl, ⟨byteOf_toNat spansFit, numBytes_toNat heightFits, byteOf_toNat rateFits⟩, byteOf_toNat modeFits, rfl,
    byteOf_toNat coverFits, count, ?_⟩
  have within : min (byteOf entries.length).toNat 16 = entries.length := by
    rw [count]
    exact Nat.min_eq_left few
  exact (congrArg (fun n => readRosterEntries n (entries.flatMap RosterEntry.bytes ++ tail)) within).trans
    (readRosterEntries_bytes entries tail)

theorem haltCauseOf_of_code (cause : HaltCause) : haltCauseOf cause.code = some cause := by
  cases cause <;> rfl

theorem readHalt_body {h : HaltRecord} (low : 1 ≤ h.reporter.toNat) (high : h.reporter.toNat ≤ 63) (tail : List Byte) :
    readHalt ([0xA7, 0x3C, kindHalt, h.epoch] ++ [h.reporter, h.cause.code] ++ tail) = some h := by
  have named : ¬(h.reporter = 0 ∨ 63 < h.reporter.toNat) := by
    rintro (zero | above)
    · rw [zero] at low
      exact absurd low (by decide)
    · omega
  have code : byteAt ([0xA7, 0x3C, kindHalt, h.epoch] ++ [h.reporter, h.cause.code] ++ tail) 5 = h.cause.code := rfl
  unfold readHalt
  rw [code, haltCauseOf_of_code]
  exact if_neg named

/-- Settles O53: every cell is header, body and a tail, and its reader looks no further than the body. -/
theorem sentCellsReadBack : Obligations.SentCellsReadBack := by
  refine ⟨fun cell length => ⟨?_, take_sealCell length, crcGood_sealCell length⟩, fun m fits => ?_, fun e d fits => ?_,
    fun r fits => ?_, fun c fits => ?_, fun h low high => ?_⟩
  · rw [sealCell_eq length, List.length_append, List.length_take, length]
    rfl
  · rw [MergeCell.bytes_eq]
    obtain ⟨length, header, tail, sealed⟩ :=
      cellOf_sent (kind := kindMerge) (epoch := m.epoch) (body := m.body) (by rw [MergeCell.body_length fits]; decide)
    exact ⟨length, header, (congrArg readMerge sealed).trans (readMerge_body fits tail)⟩
  · rw [resultCell_eq]
    obtain ⟨length, header, tail, sealed⟩ :=
      cellOf_sent (kind := kindResult) (epoch := e) (body := d.body) (by rw [ResultData.body_length fits]; decide)
    exact ⟨length, header, (congrArg readResult sealed).trans (readResult_body e fits tail), congrArg cellEpoch sealed⟩
  · rw [RosterCell.bytes_eq]
    obtain ⟨_, few⟩ := id fits
    obtain ⟨length, header, tail, sealed⟩ :=
      cellOf_sent (kind := kindRoster) (epoch := 0) (body := r.body) (by rw [RosterCell.body_length fits]; omega)
    exact ⟨length, header, (congrArg readRoster sealed).trans (readRoster_body fits tail)⟩
  · rw [CommitCell.bytes_eq]
    obtain ⟨_, _, _, _, _, _, few⟩ := id fits
    obtain ⟨length, header, tail, sealed⟩ :=
      cellOf_sent (kind := kindCommit) (epoch := c.epoch) (body := c.body) (by rw [CommitCell.body_length fits]; omega)
    exact ⟨length, header, (congrArg readCommit sealed).trans (readCommit_body fits tail)⟩
  · obtain ⟨length, header, tail, sealed⟩ :=
      cellOf_sent (kind := kindHalt) (epoch := h.epoch) (body := [h.reporter, h.cause.code])
        (show 2 ≤ 330 by decide)
    exact ⟨length, header, (congrArg readHalt sealed).trans (readHalt_body low high tail)⟩

end Sys2Proof.Machine
end

section
/-! SUPPORT. The ROSTER that gains an entry (R139 case 7), byte by byte. -/
namespace Sys2Proof.Machine

/-! ## The bytes of a field that was read -/

theorem wordAt_bytes (bs : List Byte) (i : Nat) :
    wordBytes (wordAt bs i) = [byteAt bs i, byteAt bs (i + 1), byteAt bs (i + 2), byteAt bs (i + 3)] := by
  have parts : ∀ a b c d : Byte, wordBytes ((a ++ b : Half) ++ (c ++ d : Half)) = [a, b, c, d] := fun a b c d => by
    have high : ∀ x y : Byte, (x ++ y : Half).extractLsb' 8 8 = x := fun x y => by
      rw [BitVec.extractLsb'_append_eq_of_le (by decide)]
      exact BitVec.extractLsb'_eq_self
    have low : ∀ x y : Byte, (x ++ y : Half).extractLsb' 0 8 = y := fun x y => by
      rw [BitVec.extractLsb'_append_eq_of_add_le (by decide)]
      exact BitVec.extractLsb'_eq_self
    have upper : ∀ x y : Half, (x ++ y : Serial).extractLsb' 16 16 = x := fun x y => by
      rw [BitVec.extractLsb'_append_eq_of_le (by decide)]
      exact BitVec.extractLsb'_eq_self
    have lower : ∀ x y : Half, (x ++ y : Serial).extractLsb' 0 16 = y := fun x y => by
      rw [BitVec.extractLsb'_append_eq_of_add_le (by decide)]
      exact BitVec.extractLsb'_eq_self
    unfold wordBytes halfBytes
    rw [upper, lower, high, high, low, low]
    rfl
  exact parts _ _ _ _

theorem flagBit_getLsbD : ∀ x : Byte, flagBit 0 (x.getLsbD 0) = x &&& 1 := by decide +kernel

/-- An entry that was read is sent as it arrived, its flag byte with bit 0 alone. -/
theorem readRollEntry_sent (bs : List Byte) :
    (readRollEntry bs).bytes =
      [byteAt bs 0, byteAt bs 1, byteAt bs 2, byteAt bs 3, byteAt bs 4, byteAt bs 5 &&& 1, byteAt bs 6] := by
  unfold readRollEntry RollEntry.bytes
  dsimp only
  rw [wordAt_bytes, flagBit_getLsbD]
  rfl

theorem readRollEntry_sent_at (bs : List Byte) {j : Nat} (h : j < 7) :
    byteAt (readRollEntry bs).bytes j = if j = 5 then byteAt bs j &&& 1 else byteAt bs j := by
  rw [readRollEntry_sent]
  interval_cases j <;> rfl

theorem readRollEntries_length (m : Nat) (bs : List Byte) : (readRollEntries m bs).length = m := by
  induction m generalizing bs with
  | zero => rfl
  | succ m ih => rw [readRollEntries, List.length_cons, ih]

theorem readRollEntries_get {n m : Nat} (h : n < m) (bs : List Byte) :
    (readRollEntries m bs)[n]? = some (readRollEntry (bs.drop (7 * n))) := by
  induction m generalizing n bs with
  | zero => cases h
  | succ m ih =>
    cases n with
    | zero => rfl
    | succ n =>
      rw [readRollEntries, List.getElem?_cons_succ, ih (Nat.lt_of_succ_lt_succ h), List.drop_drop]
      rw [Nat.mul_succ, Nat.add_comm 7]

/-! ## A ROSTER cell -/

/-- The bytes of a ROSTER cell before its entries. -/
def RosterCell.head (r : RosterCell) : List Byte :=
  [0xA7, 0x3C, kindRoster, 0, r.originator] ++ wordBytes r.serial ++ [r.launch, byteOf r.count]

theorem RosterCell.bytes_laid {r : RosterCell} (fits : r.Fits) :
    r.bytes = r.head ++ r.entries.flatMap RollEntry.bytes ++ List.replicate (325 - 7 * r.count) 0 := by
  obtain ⟨_, few⟩ := id fits
  rw [RosterCell.bytes_eq, cellOf_eq (n := 325 - 7 * r.count) (by rw [RosterCell.body_length fits]; omega)]
  rfl

theorem RosterCell.entries_length {r : RosterCell} (fits : r.Fits) :
    (r.head ++ r.entries.flatMap RollEntry.bytes).length = 11 + 7 * r.count := by
  rw [List.length_append, flatMap_bytes_length (k := 7) (fun _ => rfl), fits.1]
  rfl

/-- The `n`-th entry stands at byte 11 + 7 n. -/
theorem RosterCell.entry_laid {r : RosterCell} (fits : r.Fits) {n : Nat} {e : RollEntry} (item : r.entries[n]? = some e) :
    ∃ rest, r.bytes.drop (11 + 7 * n) = e.bytes ++ rest := by
  obtain ⟨pre, post, laid, offset⟩ := flatMap_bytes_at (bytes := RollEntry.bytes) (k := 7) (fun _ => rfl) item
  have before : (r.head ++ pre).length = 11 + 7 * n := by rw [List.length_append, offset]; rfl
  refine ⟨post ++ List.replicate (325 - 7 * r.count) 0, ?_⟩
  rw [RosterCell.bytes_laid fits, laid, ← before]
  simp only [← List.append_assoc]
  rw [List.append_assoc (r.head ++ pre), List.append_assoc (r.head ++ pre), List.drop_left]

theorem RosterCell.entry_byte {r : RosterCell} (fits : r.Fits) {n : Nat} {e : RollEntry} (item : r.entries[n]? = some e)
    {j : Nat} (h : j < 7) : byteAt r.bytes (11 + 7 * n + j) = byteAt e.bytes j := by
  obtain ⟨rest, laid⟩ := RosterCell.entry_laid fits item
  rw [← byteAt_drop, laid]
  exact byteAt_append_left rest h

theorem RosterCell.byte_after {r : RosterCell} (fits : r.Fits) {i : Nat} (h : 11 + 7 * r.count ≤ i) :
    byteAt r.bytes i = 0 := by
  obtain ⟨k, rfl⟩ := Nat.exists_eq_add_of_le h
  rw [RosterCell.bytes_laid fits, ← RosterCell.entries_length fits, byteAt_append_right]
  exact byteAt_zeros _ _

theorem RosterCell.head_byte {r : RosterCell} (fits : r.Fits) {i : Nat} (h : i < 11) :
    byteAt r.bytes i = byteAt r.head i := by
  rw [RosterCell.bytes_laid fits, List.append_assoc]
  exact byteAt_append_left _ h

/-! ## The ROSTER a station sends on -/

/-- A ROSTER with one more entry at its tail (R139 case 7). -/
def RosterCell.grown (r : RosterCell) (e : RollEntry) : RosterCell :=
  { r with count := r.count + 1, entries := r.entries ++ [e] }

theorem readRoster_fits {cell : CellBytes} (few : (readRoster cell).count ≤ 16) : (readRoster cell).Fits := by
  refine ⟨?_, few⟩
  exact ((readRollEntries_length _ _).trans (Nat.min_eq_left few)).symm

theorem RosterCell.grown_fits {r : RosterCell} (fits : r.Fits) (room : r.count < 16) (e : RollEntry) : (r.grown e).Fits := by
  obtain ⟨count, _⟩ := fits
  refine ⟨?_, room⟩
  rw [RosterCell.grown, List.length_append, ← count]
  rfl

/-- Originator, serial and launch number leave as they arrived. -/
theorem grown_head_byte (cell : CellBytes) (e : RollEntry) {i : Nat} (low : 4 ≤ i) (high : i < 10) :
    byteAt ((readRoster cell).grown e).head i = byteAt cell i := by
  have head : ((readRoster cell).grown e).head =
      [0xA7, 0x3C, kindRoster, 0, byteAt cell 4, byteAt cell 5, byteAt cell 6, byteAt cell 7, byteAt cell 8,
        byteAt cell 9, byteOf ((byteAt cell 10).toNat + 1)] := by
    unfold RosterCell.head RosterCell.grown readRoster
    dsimp only
    rw [wordAt_bytes]
    rfl
  rw [head]
  interval_cases i <;> rfl

theorem byteOf_toNat_succ (b : Byte) : byteOf (b.toNat + 1) = b + 1 := by
  apply BitVec.eq_of_toNat_eq
  rw [byteOf, BitVec.toNat_ofNat, BitVec.toNat_add]
  rfl

theorem State.ownEntry_rosterSeen (s : State) : s.rosterSeen.ownEntry = s.ownEntry := by
  unfold State.rosterSeen
  split <;> rfl

theorem State.ownEntry_bytes (s : State) :
    s.ownEntry.bytes =
      [s.stationId, s.serial.extractLsb' 24 8, s.serial.extractLsb' 16 8, s.serial.extractLsb' 8 8,
        s.serial.extractLsb' 0 8, if s.eligible then 1 else 0, s.ring.lastEpoch] := by
  unfold RollEntry.bytes State.ownEntry
  dsimp only
  rw [wordBytes_eq]
  rfl

/-- The case of R139 in which the station's own entry is added. -/
theorem State.rosterCase_append {s : State} {r : RosterCell} (form : RosterForm r)
    (absent : ∀ e ∈ r.entries, e.serial ≠ s.serial ∧ e.id ≠ s.stationId)
    (best : ¬(s.eligible = true ∧ s.stationId.toNat < r.originator.toNat)) (room : r.count < 16) :
    s.rosterCase r = .append := by
  rw [State.rosterCase_unlisted form fun e he => (absent e he).1, if_neg best,
    if_neg fun ⟨e, he, same⟩ => (absent e he).2 same, if_neg (Nat.ne_of_lt room)]

/-- Settles O19: the cell sent on is the one that arrived with the station's entry at its tail, written afresh. -/
theorem rosterGainsTheStationsEntry : Obligations.RosterGainsTheStationsEntry := by
  rintro cell s r _ hears roll rfl form absent best room
  have fits := readRoster_fits room.le
  have grown := RosterCell.grown_fits fits room s.ownEntry
  have own : ((readRoster cell).grown s.ownEntry).entries[(readRoster cell).count]? = some s.ownEntry := by
    rw [fits.1]
    exact List.getElem?_concat_length
  have arrived : ∀ n, n < (readRoster cell).count →
      ((readRoster cell).grown s.ownEntry).entries[n]? = some (readRollEntry (cell.drop (11 + 7 * n))) := fun n hn => by
    have listed : (readRoster cell).entries[n]? = some (readRollEntry (cell.drop (11 + 7 * n))) := by
      refine (readRollEntries_get (Nat.lt_min.2 ⟨hn, hn.trans room⟩) _).trans ?_
      rw [List.drop_drop]
    exact (List.getElem?_append_left (List.getElem?_eq_some_iff.1 listed).1).trans listed
  have sent : exec (.roster cell) s = .next (s.rosterSeen.forward ((readRoster cell).grown s.ownEntry).bytes) := by
    rw [exec_roster_case hears roll form (State.rosterCase_append form absent best room), ← s.ownEntry_rosterSeen]
    rfl
  have laid : ((readRoster cell).grown s.ownEntry).bytes = [0xA7, 0x3C, kindRoster, 0] ++
      ((readRoster cell).grown s.ownEntry).body ++ List.replicate (325 - 7 * ((readRoster cell).count + 1)) 0 :=
    RosterCell.bytes_laid grown
  obtain ⟨length, header, _⟩ := cellOf_sent (kind := kindRoster) (epoch := 0)
    (body := ((readRoster cell).grown s.ownEntry).body) (by rw [RosterCell.body_length grown]; have := grown.2; omega)
  refine ⟨_, _, sent, State.forward_forwards _ _, length, header, fun i low high => ?_, ?_, fun n j hn hj => ?_, ?_,
    fun i above => RosterCell.byte_after grown ?_, ?_⟩
  · rw [RosterCell.head_byte grown (high.trans (by decide)), grown_head_byte cell _ low high]
  · rw [RosterCell.head_byte grown (by decide)]
    exact byteOf_toNat_succ (byteAt cell 10)
  · rw [RosterCell.entry_byte grown (arrived n hn) hj, readRollEntry_sent_at _ hj, byteAt_drop]
  · obtain ⟨rest, entry⟩ := RosterCell.entry_laid grown own
    refine (congrArg (List.take 7) entry).trans (Eq.trans ?_ s.ownEntry_bytes)
    exact List.take_left' rfl
  · refine Nat.le_trans (Nat.le_of_eq ?_) above
    change 11 + 7 * ((readRoster cell).count + 1) = _
    ring
  · rw [laid]
    exact readRoster_body grown _

end Sys2Proof.Machine
end
